-- ==== Sys2Proof/Word.lean ====
section
/-!
DEFINITION. The word types of the Javion ADS-B decode block, and exact fractions.
-/

namespace Sys2Proof

/-- A byte of the byte buffer, of a frame, or of the sample stream. -/
abbrev Byte := BitVec 8

/-- A register of the host interface, or a command word (10_state.md R22, 30_encoding.md R80). -/
abbrev Word := BitVec 32

/-- A LO/HI register pair (20_memory.md R71). -/
abbrev DWord := BitVec 64

/-- A CRC24 accumulator or table entry (41_crc24.md R130). -/
abbrev Crc := BitVec 24

/-- A raw CPR field k, standing for k / 2^17 (30_encoding.md R93). -/
abbrev CprField := BitVec 17

/-- The 56-bit payload ME of a frame (30_encoding.md R92). -/
abbrev Payload := BitVec 56

/-- An exact rational `num / den`, not reduced (00_scope.md R11: rationals are exact).
The denominators the model forms are all positive. -/
structure Frac where
  num : Int
  den : Nat
  deriving DecidableEq, Repr

end Sys2Proof
end

