-- ==== Sys2Proof/Syntax.lean ====
section
/-!
DEFINITION. The commands of the block, one constructor per row of spec/opcode_table.json
(30_encoding.md R84). A and B are the operand fields of the command word, unsigned 8-bit integers used
exactly as written (30_encoding.md R81).
-/

namespace Sys2Proof

/-- The seventeen commands (30_encoding.md R84). -/
inductive Instr where
  /-- NOP (43_rawframe.md R198). -/
  | nop
  /-- BV_EXTRACT start, size (40_bitview.md R111). -/
  | bvExtract (start size : Byte)
  /-- BV_TESTBIT index (40_bitview.md R112). -/
  | bvTestbit (index : Byte)
  /-- BS_LENGTH (40_bitview.md R115). -/
  | bsLength
  /-- BS_BYTEAT index (40_bitview.md R113). -/
  | bsByteat (index : Byte)
  /-- BS_RANGE from, to (40_bitview.md R114): the half-open byte range [lo, hi). -/
  | bsRange (lo hi : Byte)
  /-- CRC_TABLE entry (41_crc24.md R134). -/
  | crcTable (entry : Byte)
  /-- CRC_COMPUTE (41_crc24.md R135). -/
  | crcCompute
  /-- RF_OF (43_rawframe.md R190). -/
  | rfOf
  /-- RF_DF (43_rawframe.md R191). -/
  | rfDf
  /-- RF_ICAO (43_rawframe.md R192). -/
  | rfIcao
  /-- RF_ME (43_rawframe.md R193). -/
  | rfMe
  /-- RF_TC (43_rawframe.md R194). -/
  | rfTc
  /-- RF_CLASS (43_rawframe.md R195). -/
  | rfClass
  /-- RF_CPRLOAD (43_rawframe.md R196). -/
  | rfCprload
  /-- CPR_DECODE mr (44_cpr.md R230): `a` is the whole A field, whose bit 0 is mr. -/
  | cprDecode (a : Byte)
  /-- FIFO_POP (43_rawframe.md R199). -/
  | fifoPop
  deriving DecidableEq, Repr

end Sys2Proof
end

