-- ==== Sys2Proof/WellFormed.lean ====
section
/-!
DEFINITION. Which commands have an encoding. The operand fields are 8 bits wide and every value of them is an
operand (30_encoding.md R81), so the one check is that of CPR_DECODE, whose A[7:1] must be 0 (30_encoding.md R82).
-/

namespace Sys2Proof

/-- The command can be written as a legal word. -/
def Instr.wellFormed : Instr → Bool
  | .nop => true
  | .bvExtract _ _ => true
  | .bvTestbit _ => true
  | .bsLength => true
  | .bsByteat _ => true
  | .bsRange _ _ => true
  | .crcTable _ => true
  | .crcCompute => true
  | .rfOf => true
  | .rfDf => true
  | .rfIcao => true
  | .rfMe => true
  | .rfTc => true
  | .rfClass => true
  | .rfCprload => true
  | .cprDecode a => decide (a.toNat < 2)
  | .fifoPop => true

/-- `Instr.wellFormed` as a proposition. -/
abbrev WellFormed (i : Instr) : Prop := i.wellFormed = true

end Sys2Proof
end

