-- ==== Sys2Proof/Decode.lean ====
section
/-!
DEFINITION. Decoding a command word (30_encoding.md R80-R85), total and rejecting by name, and the encoder
(30_encoding.md R83).
-/

namespace Sys2Proof

/-- Why a word is illegal (30_encoding.md R82): both reasons fault with cause ILLEGAL_CMD. -/
inductive DecodeError where
  /-- w[7:0] is not an opcode listed in R84. -/
  | unlistedOpcode
  /-- A bit the opcode's row marks as must-be-zero is 1. -/
  | mustBeZero
  deriving DecidableEq, Repr

/-- The OP field, bits 7:0 (30_encoding.md R80). -/
def fieldOp (w : Word) : Byte := w.extractLsb' 0 8

/-- The A field, bits 15:8. -/
def fieldA (w : Word) : Byte := w.extractLsb' 8 8

/-- The B field, bits 23:16. -/
def fieldB (w : Word) : Byte := w.extractLsb' 16 8

/-- The RSV field, bits 31:24. -/
def fieldRsv (w : Word) : Byte := w.extractLsb' 24 8

/-- The second check of 30_encoding.md R82: the command runs only if its must-be-zero bits are 0. -/
def needZero (ok : Bool) (i : Instr) : Except DecodeError Instr :=
  if ok then .ok i else .error .mustBeZero

/-- Decoding a command word (30_encoding.md R82, R84): first the opcode, then the must-be-zero bits. -/
def decode (w : Word) : Except DecodeError Instr :=
  let a := fieldA w
  let b := fieldB w
  let r := fieldRsv w
  match (fieldOp w).toNat with
  | 0x00 => needZero (a == 0 && b == 0 && r == 0) .nop
  | 0x01 => needZero (r == 0) (.bvExtract a b)
  | 0x02 => needZero (b == 0 && r == 0) (.bvTestbit a)
  | 0x08 => needZero (a == 0 && b == 0 && r == 0) .bsLength
  | 0x09 => needZero (b == 0 && r == 0) (.bsByteat a)
  | 0x0A => needZero (r == 0) (.bsRange a b)
  | 0x10 => needZero (b == 0 && r == 0) (.crcTable a)
  | 0x11 => needZero (a == 0 && b == 0 && r == 0) .crcCompute
  | 0x20 => needZero (a == 0 && b == 0 && r == 0) .rfOf
  | 0x21 => needZero (a == 0 && b == 0 && r == 0) .rfDf
  | 0x22 => needZero (a == 0 && b == 0 && r == 0) .rfIcao
  | 0x23 => needZero (a == 0 && b == 0 && r == 0) .rfMe
  | 0x24 => needZero (a == 0 && b == 0 && r == 0) .rfTc
  | 0x25 => needZero (a == 0 && b == 0 && r == 0) .rfClass
  | 0x26 => needZero (a == 0 && b == 0 && r == 0) .rfCprload
  | 0x30 => needZero (a.extractLsb' 1 7 == 0 && b == 0 && r == 0) (.cprDecode a)
  | 0x40 => needZero (a == 0 && b == 0 && r == 0) .fifoPop
  | _ => .error .unlistedOpcode

/-- OP | A << 8 | B << 16, with RSV = 0 (30_encoding.md R83). -/
def commandWord (op a b : Byte) : Word := 0#8 ++ b ++ a ++ op

/-- The word of a command (30_encoding.md R83, R84). -/
def encode : Instr → Word
  | .nop => commandWord 0x00 0 0
  | .bvExtract start size => commandWord 0x01 start size
  | .bvTestbit index => commandWord 0x02 index 0
  | .bsLength => commandWord 0x08 0 0
  | .bsByteat index => commandWord 0x09 index 0
  | .bsRange lo hi => commandWord 0x0A lo hi
  | .crcTable entry => commandWord 0x10 entry 0
  | .crcCompute => commandWord 0x11 0 0
  | .rfOf => commandWord 0x20 0 0
  | .rfDf => commandWord 0x21 0 0
  | .rfIcao => commandWord 0x22 0 0
  | .rfMe => commandWord 0x23 0 0
  | .rfTc => commandWord 0x24 0 0
  | .rfClass => commandWord 0x25 0 0
  | .rfCprload => commandWord 0x26 0 0
  | .cprDecode a => commandWord 0x30 a 0
  | .fifoPop => commandWord 0x40 0 0

/-- The match and the mask of a command's row in spec/opcode_table.json (30_encoding.md R84): a word w is of the row
exactly when `w & mask = match` (R82). -/
def tableRow : Instr → Word × Word
  | .nop => (0x00000000, 0xFFFFFFFF)
  | .bvExtract _ _ => (0x00000001, 0xFF0000FF)
  | .bvTestbit _ => (0x00000002, 0xFFFF00FF)
  | .bsLength => (0x00000008, 0xFFFFFFFF)
  | .bsByteat _ => (0x00000009, 0xFFFF00FF)
  | .bsRange _ _ => (0x0000000A, 0xFF0000FF)
  | .crcTable _ => (0x00000010, 0xFFFF00FF)
  | .crcCompute => (0x00000011, 0xFFFFFFFF)
  | .rfOf => (0x00000020, 0xFFFFFFFF)
  | .rfDf => (0x00000021, 0xFFFFFFFF)
  | .rfIcao => (0x00000022, 0xFFFFFFFF)
  | .rfMe => (0x00000023, 0xFFFFFFFF)
  | .rfTc => (0x00000024, 0xFFFFFFFF)
  | .rfClass => (0x00000025, 0xFFFFFFFF)
  | .rfCprload => (0x00000026, 0xFFFFFFFF)
  | .cprDecode _ => (0x00000030, 0xFFFFFEFF)
  | .fifoPop => (0x00000040, 0xFFFFFFFF)

/-- The command in the low `nbits` bits of `w`, numbered as spec/opcode_table.json numbers them, every bit above
them 0. A command is one 32-bit word (30_encoding.md R80), so a value that does not fit one is no command. -/
def decodeTableWord (nbits w : Nat) : Option Instr :=
  let v := w % 2 ^ nbits
  if v < 2 ^ 32 then
    match decode (BitVec.ofNat 32 v) with
    | .ok i => some i
    | .error _ => none
  else none

end Sys2Proof
end

