-- ==== Sys2Proof/Config.lean ====
section
/-!
DEFINITION. What an implementation fixes, and the free values: the parameters of 00_scope.md R8 and R9
and 10_state.md R46. A constant with no body is a free value: nothing in Lean can evaluate it, so what is
proved holds whatever it is.
-/

namespace Sys2Proof

/-- The agents whose steps the machine takes (10_state.md R20). -/
inductive Agent where
  | host
  | source
  | demodulator
  deriving DecidableEq, Repr, Inhabited

/-- The access sizes a host access can have: 1, 2, 4 or 8 bytes (10_state.md R26). -/
inductive AccessSize where
  | b1
  | b2
  | b4
  | b8
  deriving DecidableEq, Repr, Inhabited

/-- One host access (00_scope.md R13): a read, or a write of `value`, at an 8-bit register offset.
The value is kept as 32 bits, since a write of another size never uses its value (20_memory.md R64). -/
inductive Access where
  | read (size : AccessSize) (addr : Byte)
  | write (size : AccessSize) (addr : Byte) (value : Word)
  deriving DecidableEq, Repr, Inhabited

/-- One item of the Source's stream: a byte, or the end-of-stream signal (10_state.md R20). -/
inductive SourceItem where
  | byte (b : Byte)
  | endOfStream
  deriving DecidableEq, Repr, Inhabited

/-- How `round` resolves a tie (44_cpr.md R221). -/
inductive RoundTies where
  | even
  | up
  deriving DecidableEq, Repr

namespace Config

/-- W, the demodulator's window size in power samples (42_demod.md R163). -/
def windowSize : Nat := 1200

/-- SAMPLE_BIAS (00_scope.md R8). -/
def sampleBias : Int := 2048

/-- SAMPLE_PERIOD_NS (00_scope.md R8). -/
def samplePeriodNs : Nat := 100

/-- DF_ADSB, the downlink format the demodulator keeps (00_scope.md R8). -/
def dfAdsb : Nat := 17

/-- CRC_GEN, the generator without its x^24 term (00_scope.md R8, 41_crc24.md R130). -/
def crcGen : Crc := 0xFFF409

/-- ROUND_TIES: the spec takes `even` (00_scope.md R9, 44_cpr.md R221). Log entry 7 (DESIGN CHOICE). -/
def roundTies : RoundTies := .even

/-- Free value: FIFO_DEPTH - 1. FIFO_DEPTH is any integer from 1 to 65535 (00_scope.md R9, 10_state.md R24). -/
opaque fifoDepthLessOne : Fin 65535

/-- FIFO_DEPTH, the number of entries of the frame FIFO (10_state.md R36). Log entry 5. -/
def fifoDepth : Nat := fifoDepthLessOne.val + 1

/-- Free value: PBUF_CAP - (W + 1). PBUF_CAP is any integer >= W + 1 (00_scope.md R9). -/
opaque pbufExtra : Nat

/-- PBUF_CAP, the number of entries of the internal power buffer (42_demod.md R162). Log entry 6. -/
def pbufCap : Nat := windowSize + 1 + pbufExtra

/-- Free value: which agent takes the step that follows `moves` earlier steps, where no turn has been placed.
10_state.md R20: "Any enabled step of any agent may be taken next". Log entry 2. -/
opaque freeTurn : Nat → Agent

/-- Free value: the host access of a host step, where none has been placed: the host's sequence of accesses is a
parameter of the model (10_state.md R46). Log entry 3. -/
opaque freeAccess : Nat → Access

/-- Free value: what the Source offers at a Source step, where nothing has been placed: the input byte stream is a
parameter of the model (10_state.md R46). Log entry 3. -/
opaque freeItem : Nat → SourceItem

end Config

end Sys2Proof
end

