-- ==== Sys2Proof/Machine/State.lean ====
section
/-!
DEFINITION. The state of the block (10_state.md), the environment it meets, and the state after reset.
-/

namespace Sys2Proof.Machine

/-- The cause a fault records (60_exceptions.md R260); `none` is the code 0x00, no fault recorded. -/
inductive FaultCause where
  | none
  | illegalCmd
  | fieldRange
  | bitIndex
  | byteIndex
  | byteSpan
  | frameLength
  | negTimestamp
  | noFrame
  | fifoEmpty
  | badReg
  | blenRange
  | tsOverflow
  deriving DecidableEq, Repr

/-- A raw frame: a timestamp in nanoseconds (64-bit two's complement) and 14 bytes, byte 0 first
(10_state.md R33, R36). -/
structure Frame where
  ts : DWord
  bytes : Vector Byte 14
  deriving DecidableEq, Repr

/-- The reasons the model itself would stop with a fault. There is none: what the spec calls a fault
(60_exceptions.md R262) is recorded in STATUS and FAULT_INFO and the machine goes on as R266 says, so it is a next
state (log entry 1). Safe: no step stops. -/
inductive Fault where
  deriving DecidableEq, Repr

/-- The reasons the model would refuse an instruction. -/
inductive Refusal where
  /-- Raised only by an arm of `exec` for a command that has no meaning yet; no arm raises it. Safe. -/
  | notModelled (mnemonic : String)
  deriving DecidableEq, Repr

/-- The state: the block's registers (10_state.md R22-R34), its internal state (R36-R42), and the environment
the model adds (the agents' turns, the host's accesses, the Source's stream, the value last read). -/
structure State where
  /-- CTRL.DEMOD_EN (R23). -/
  demodEn : Bool
  /-- STATUS.FAULT (R24). -/
  fault : Bool
  /-- STATUS.PRESENT (R24). -/
  present : Bool
  /-- STATUS.FR_VALID (R24). -/
  frValid : Bool
  /-- STATUS.DONE (R24, R42). -/
  done : Bool
  /-- STATUS.EOS (R24, R42). -/
  eos : Bool
  /-- STATUS.FAULT_CAUSE (R24). -/
  faultCause : FaultCause
  /-- FAULT_INFO (R26). -/
  faultInfo : Word
  /-- CMD (R25). -/
  cmd : Word
  /-- OPA_HI || OPA_LO (R27). -/
  opa : DWord
  /-- RES_HI || RES_LO (R28). -/
  res : DWord
  /-- TS_HI || TS_LO (R29). -/
  ts : DWord
  /-- BLEN, 0..16 (R30). -/
  blen : Fin 17
  /-- BBUF[0..15] (R31). -/
  bbuf : Vector Byte 16
  /-- CPR_X0, the even-half longitude field (R32). -/
  cprX0 : CprField
  /-- CPR_Y0, the even-half latitude field (R32). -/
  cprY0 : CprField
  /-- CPR_X1, the odd-half longitude field (R32). -/
  cprX1 : CprField
  /-- CPR_Y1, the odd-half latitude field (R32). -/
  cprY1 : CprField
  /-- The frame register FR (R33). -/
  fr : Frame
  /-- The window position POS (R41). -/
  pos : DWord
  /-- The frame FIFO, head first (R36); its length is STATUS.FIFO_COUNT. -/
  fifo : List Frame
  /-- The byte waiting for its partner (R37). -/
  lowByte : Option Byte
  /-- The number of samples decoded so far (R37). -/
  nSamples : Nat
  /-- The FIR history, hist[0] oldest (R38). -/
  hist : Vector Int 8
  /-- The first sample of a pair, waiting for the second (R38). -/
  half : Option Int
  /-- The power stream, P[0] first (R39); its length is NP. -/
  power : List Nat
  /-- The model's own: the number of steps taken, the argument of the free values of Config. -/
  moves : Nat
  /-- The model's own: the agents placed to move next; when empty, `Config.freeTurn` chooses. -/
  turns : List Agent
  /-- The model's own: the host accesses placed to come next; when empty, `Config.freeAccess` gives them. -/
  accesses : List Access
  /-- The model's own: the Source items placed to come next; when empty, `Config.freeItem` gives them. -/
  stream : List SourceItem
  /-- The model's own: the value the bus last returned to the host, none before its first read. -/
  readData : Option Word
  deriving DecidableEq, Repr

/-- The machine right after power-on reset (10_state.md R45, 70_reset_and_hazards.md R290), with nothing placed in
the environment (log entries 2, 3 and 9). -/
def State.reset : State where
  demodEn := false
  fault := false
  present := false
  frValid := false
  done := false
  eos := false
  faultCause := .none
  faultInfo := 0
  cmd := 0
  opa := 0
  res := 0
  ts := 0
  blen := 0
  bbuf := Vector.replicate 16 0
  cprX0 := 0
  cprY0 := 0
  cprX1 := 0
  cprY1 := 0
  fr := { ts := 0, bytes := Vector.replicate 14 0 }
  pos := 0
  fifo := []
  lowByte := none
  nSamples := 0
  hist := Vector.replicate 8 0
  half := none
  power := []
  moves := 0
  turns := []
  accesses := []
  stream := []
  readData := none

end Sys2Proof.Machine
end

