-- ==== Sys2Proof/Machine/Ops.lean ====
section
/-!
DEFINITION. The named operations on the state: fault entry, reset (the one way out of a fault), the two forms of a
command's result, the frame register, the FIFO, and taking the environment's next move.
-/

namespace Sys2Proof.Machine

/-- What a meaning answers. -/
abbrev Result := Host.Outcome State Fault Refusal

/-- Fault entry, `raise Fault(cause, info)` (60_exceptions.md R262): the three fault fields and nothing else. There is
no saved program counter, no mode and no vector. -/
def raiseFault (cause : FaultCause) (info : Word) (s : State) : State :=
  { s with fault := true, faultCause := cause, faultInfo := info }

/-- `raise Fault(cause, CMD)` (00_scope.md R13, 10_state.md R26): a command fault records the command word, which the
CMD write has already stored. -/
def raiseCmd (cause : FaultCause) (s : State) : State :=
  raiseFault cause s.cmd s

/-- Soft reset (70_reset_and_hazards.md R292): the state change of power-on reset (R290, 10_state.md R45), and the
one way out of a fault but for power-on (60_exceptions.md R264). What is outside the block (the turns, the host's
accesses, the Source's remaining stream, what the host has read) is no part of it. -/
def softReset (s : State) : State :=
  { State.reset with
    moves := s.moves
    turns := s.turns
    accesses := s.accesses
    stream := s.stream
    readData := s.readData }

/-- `present(v)` (00_scope.md R13). -/
def setPresent (v : DWord) (s : State) : State :=
  { s with res := v, present := true }

/-- `absent` (00_scope.md R13). -/
def setAbsent (s : State) : State :=
  { s with res := 0, present := false }

/-- A frame into FR, with FR_VALID set (43_rawframe.md R190, R199). -/
def loadFrame (f : Frame) (s : State) : State :=
  { s with fr := f, frValid := true }

/-- FR_VALID cleared; FR keeps its old value (43_rawframe.md R190). -/
def dropFrame (s : State) : State :=
  { s with frValid := false }

/-- A frame appended at the tail of the FIFO (42_demod.md R171). -/
def pushFrame (f : Frame) (s : State) : State :=
  { s with fifo := s.fifo ++ [f] }

/-- End of stream: EOS is set (10_state.md R44) and the remainders are discarded (42_demod.md R156). -/
def endStream (s : State) : State :=
  { s with eos := true, lowByte := none, half := none }

/-- The window moved to `p` (42_demod.md R166, R167). -/
def setPos (p : DWord) (s : State) : State :=
  { s with pos := p }

/-- The even half of the CPR operands (43_rawframe.md R196). -/
def setCprEven (x y : CprField) (s : State) : State :=
  { s with cprX0 := x, cprY0 := y }

/-- The odd half of the CPR operands (43_rawframe.md R196). -/
def setCprOdd (x y : CprField) (s : State) : State :=
  { s with cprX1 := x, cprY1 := y }

/-- The value the bus returns to the host (20_memory.md R61). -/
def returnData (v : Word) (s : State) : State :=
  { s with readData := some v }

/-- The agent that takes the next step: the placed turn, or the free one (10_state.md R20). -/
def nextAgent (s : State) : Agent :=
  match s.turns with
  | a :: _ => a
  | [] => Config.freeTurn s.moves

/-- The next host access: the placed one, or the free one (10_state.md R46). -/
def nextAccess (s : State) : Access :=
  match s.accesses with
  | a :: _ => a
  | [] => Config.freeAccess s.moves

/-- What the Source offers next: the placed item, or the free one (10_state.md R46). -/
def nextItem (s : State) : SourceItem :=
  match s.stream with
  | i :: _ => i
  | [] => Config.freeItem s.moves

/-- One step counted and its placed turn used up. -/
def takeTurn (s : State) : State :=
  { s with moves := s.moves + 1, turns := s.turns.tail }

/-- The placed host access used up. -/
def takeAccess (s : State) : State :=
  { s with accesses := s.accesses.tail }

/-- The placed stream item used up: the Source has delivered it. -/
def takeItem (s : State) : State :=
  { s with stream := s.stream.tail }

end Sys2Proof.Machine
end

