-- ==== Sys2Proof/Machine/Operands.lean ====
section
/-!
DEFINITION. The operand forms: byte sequences and their big-endian words, the byte buffer, register packing, and the
fields of a frame.
-/

namespace Sys2Proof.Machine

/-- The big-endian word of a byte sequence, the first byte the most significant (20_memory.md R69). -/
def beWord (bs : List Byte) : DWord :=
  bs.foldl (fun r b => (r <<< 8) ||| b.setWidth 64) 0

/-- The bytes at indices [lo, hi) of a sequence. -/
def byteSlice (bs : List Byte) (lo hi : Nat) : List Byte :=
  (bs.drop lo).take (hi - lo)

/-- The byte sequence BBUF[0..BLEN) (10_state.md R30, R31). -/
def byteSeq (s : State) : List Byte :=
  s.bbuf.toList.take s.blen.val

/-- Byte `j` (0..3) of a packed register, byte 0 at bits 31:24 (10_state.md R31). -/
def wordByte (v : Word) (j : Nat) : Byte :=
  v.extractLsb' (8 * (3 - j)) 8

/-- Four bytes packed into a register, big-endian (10_state.md R31, 20_memory.md R71). -/
def packBytes (b0 b1 b2 b3 : Byte) : Word :=
  b0 ++ b1 ++ b2 ++ b3

/-- The low half of a LO/HI pair (20_memory.md R71). -/
def loHalf (v : DWord) : Word := v.extractLsb' 0 32

/-- The high half of a LO/HI pair (20_memory.md R71). -/
def hiHalf (v : DWord) : Word := v.extractLsb' 32 32

/-- A LO/HI pair whose low half is replaced. -/
def withLo (v : DWord) (lo : Word) : DWord := hiHalf v ++ lo

/-- A LO/HI pair whose high half is replaced. -/
def withHi (v : DWord) (hi : Word) : DWord := hi ++ loHalf v

/-- The value of register BBUFk (10_state.md R31). -/
def bbufWord (k : Fin 4) (s : State) : Word :=
  packBytes s.bbuf[4 * k.val] s.bbuf[4 * k.val + 1] s.bbuf[4 * k.val + 2] s.bbuf[4 * k.val + 3]

/-- A byte buffer whose bytes 4k..4k+3 are those of a register value (10_state.md R31). -/
def bytesWithWord (k : Fin 4) (v : Word) (bytes : Vector Byte 16) : Vector Byte 16 :=
  Vector.ofFn fun i => if i.val / 4 = k.val then wordByte v (i.val % 4) else bytes[i.val]

/-- A write of register BBUFk sets its four bytes (10_state.md R31). -/
def setBbufWord (k : Fin 4) (v : Word) (s : State) : State :=
  { s with bbuf := bytesWithWord k v s.bbuf }

/-- The first 14 bytes of the byte buffer, the bytes of the frame RF_OF builds (43_rawframe.md R190). -/
def bbufFrame (s : State) : Vector Byte 14 :=
  Vector.ofFn fun i => s.bbuf[i.val]

/-- The downlink format, byte 0 bits 7:3 (30_encoding.md R91, 43_rawframe.md R191). -/
def Frame.df (f : Frame) : BitVec 5 :=
  f.bytes[0].extractLsb' 3 5

/-- The ICAO address, bytes 1-3 (30_encoding.md R91, 43_rawframe.md R192). -/
def Frame.icao (f : Frame) : BitVec 24 :=
  f.bytes[1] ++ f.bytes[2] ++ f.bytes[3]

/-- The payload ME, bytes 4-10 (30_encoding.md R91, 43_rawframe.md R193). -/
def Frame.payload (f : Frame) : Payload :=
  f.bytes[4] ++ f.bytes[5] ++ f.bytes[6] ++ f.bytes[7] ++ f.bytes[8] ++ f.bytes[9] ++ f.bytes[10]

/-- The type code, payload bits 55:51 (30_encoding.md R92). -/
def Frame.typeCode (f : Frame) : BitVec 5 :=
  f.payload.extractLsb' 51 5

/-- The CPR parity, payload bit 34: false even, true odd (30_encoding.md R92). -/
def Frame.cprOdd (f : Frame) : Bool :=
  f.payload.getLsbD 34

/-- The CPR local latitude, payload bits 33:17 (30_encoding.md R92). -/
def Frame.cprLat (f : Frame) : CprField :=
  f.payload.extractLsb' 17 17

/-- The CPR local longitude, payload bits 16:0 (30_encoding.md R92). -/
def Frame.cprLon (f : Frame) : CprField :=
  f.payload.extractLsb' 0 17

/-- The dispatch class of a type code, 0 for none (43_rawframe.md, helpers; 30_encoding.md R96). -/
def dispatchClass (tc : Nat) : Nat :=
  if 1 ≤ tc ∧ tc ≤ 4 then 1
  else if (9 ≤ tc ∧ tc ≤ 18) ∨ (20 ≤ tc ∧ tc ≤ 22) then 2
  else if tc = 19 then 3
  else 0

end Sys2Proof.Machine
end

