-- ==== Sys2Proof/Machine/Flags.lean ====
section
/-!
DEFINITION. The status and control words and the fault information word, put together from the fields of the state.
-/

namespace Sys2Proof.Machine

/-- The code of a fault cause (60_exceptions.md R260). -/
def FaultCause.code : FaultCause → Byte
  | .none => 0x00
  | .illegalCmd => 0x01
  | .fieldRange => 0x02
  | .bitIndex => 0x03
  | .byteIndex => 0x04
  | .byteSpan => 0x05
  | .frameLength => 0x06
  | .negTimestamp => 0x07
  | .noFrame => 0x08
  | .fifoEmpty => 0x09
  | .badReg => 0x0A
  | .blenRange => 0x0B
  | .tsOverflow => 0x0C

/-- STATUS.FIFO_COUNT (10_state.md R24, R36). -/
def fifoCount (s : State) : BitVec 16 :=
  BitVec.ofNat 16 s.fifo.length

/-- The value of STATUS (10_state.md R24): FIFO_COUNT, FAULT_CAUSE, three reserved bits, EOS, DONE, FR_VALID,
PRESENT, FAULT. -/
def statusWord (s : State) : Word :=
  fifoCount s ++ s.faultCause.code ++ 0#3 ++ BitVec.ofBool s.eos ++ BitVec.ofBool s.done ++
    BitVec.ofBool s.frValid ++ BitVec.ofBool s.present ++ BitVec.ofBool s.fault

/-- The value of CTRL (10_state.md R23): SRST and the reserved bits read 0. -/
def ctrlWord (s : State) : Word :=
  0#31 ++ BitVec.ofBool s.demodEn

/-- The size of an access in bytes. -/
def accessBytes : AccessSize → BitVec 4
  | .b1 => 1
  | .b2 => 2
  | .b4 => 4
  | .b8 => 8

/-- `busInfo(w, n, addr)` (20_memory.md R61, 10_state.md R26): bit 31 set, bit 30 the write flag, bits 11:8 the size
in bytes, bits 7:0 the offset. -/
def busInfo (isWrite : Bool) (size : AccessSize) (addr : Byte) : Word :=
  1#1 ++ BitVec.ofBool isWrite ++ 0#18 ++ accessBytes size ++ addr

end Sys2Proof.Machine
end

