-- ==== Sys2Proof/Machine/BitView.lean ====
section
/-!
DEFINITION. The BitView commands (40_bitview.md).
-/

namespace Sys2Proof.Machine

/-- BV_EXTRACT (40_bitview.md R111). -/
def execBvExtract (start size : Byte) (s : State) : Result :=
  if ¬ (0 < size.toNat ∧ size.toNat < 32) then .next (raiseCmd .fieldRange s)
  else if start.toNat + size.toNat > 64 then .next (raiseCmd .fieldRange s)
  else .next (setPresent ((s.opa >>> start.toNat) &&& ((1#64 <<< size.toNat) - 1#64)) s)

/-- BV_TESTBIT (40_bitview.md R112). -/
def execBvTestbit (index : Byte) (s : State) : Result :=
  if index.toNat ≥ 64 then .next (raiseCmd .bitIndex s)
  else .next (setPresent ((s.opa >>> index.toNat) &&& 1#64) s)

/-- BS_BYTEAT (40_bitview.md R113). -/
def execBsByteat (index : Byte) (s : State) : Result :=
  if index.toNat ≥ s.blen.val then .next (raiseCmd .byteIndex s)
  else .next (setPresent ((s.bbuf.toList.getD index.toNat 0).setWidth 64) s)

/-- BS_RANGE (40_bitview.md R114): the bounds are checked before the span. -/
def execBsRange (lo hi : Byte) (s : State) : Result :=
  if lo.toNat > hi.toNat ∨ hi.toNat > s.blen.val then .next (raiseCmd .byteIndex s)
  else if hi.toNat - lo.toNat > 8 then .next (raiseCmd .byteSpan s)
  else .next (setPresent (beWord (byteSlice s.bbuf.toList lo.toNat hi.toNat)) s)

/-- BS_LENGTH (40_bitview.md R115). -/
def execBsLength (s : State) : Result :=
  .next (setPresent (BitVec.ofNat 64 s.blen.val) s)

end Sys2Proof.Machine
end

