-- ==== Sys2Proof/Machine/Cpr.lean ====
section
/-!
DEFINITION. The CPR compact-position decoder (44_cpr.md). All arithmetic is exact: a rational is a `Frac`, an integer
numerator over a positive denominator (R220, R233; log entry 18).
-/

namespace Sys2Proof.Machine

/-- `q + z` for an integer z. -/
def fracAddInt (z : Int) (q : Frac) : Frac := ⟨z * q.den + q.num, q.den⟩

/-- `q / d` for a positive integer d. -/
def fracDivNat (q : Frac) (d : Nat) : Frac := ⟨q.num, q.den * d⟩

/-- `q * z` for an integer z. -/
def fracMulInt (q : Frac) (z : Int) : Frac := ⟨q.num * z, q.den⟩

/-- `p - q`. -/
def fracSub (p q : Frac) : Frac := ⟨p.num * q.den - q.num * p.den, p.den * q.den⟩

/-- `p < q`, for positive denominators. -/
def fracLt (p q : Frac) : Bool := decide (p.num * q.den < q.num * p.den)

/-- `floor(q)` (00_scope.md R13). -/
def fracFloor (q : Frac) : Int := q.num / q.den

/-- `round(q)` (44_cpr.md R221): the nearest integer; a tie goes to the even one of the two, or to the greater. -/
def fracRound (ties : RoundTies) (q : Frac) : Int :=
  let n := fracFloor q
  let twiceRest := 2 * (q.num - n * q.den)
  if twiceRest < q.den then n
  else if twiceRest > q.den then n + 1
  else
    match ties with
    | .even => if n % 2 = 0 then n else n + 1
    | .up => n + 1

/-- `recenter(v)` (44_cpr.md R222): v - 1 if v >= 1/2. -/
def recenter (v : Frac) : Frac :=
  if 2 * v.num ≥ v.den then fracAddInt (-1) v else v

/-- A CPR field k as the fraction k / 2^17 (44_cpr.md R220). -/
def cprFrac (k : CprField) : Frac := ⟨k.toNat, 2 ^ 17⟩

/-- The latitude zone index (44_cpr.md R223). -/
def zPhi (ties : RoundTies) (yEven yOdd : Frac) : Int :=
  fracRound ties (fracSub (fracMulInt yEven 59) (fracMulInt yOdd 60))

/-- A zone index z wrapped by the number of zones when negative (44_cpr.md R223, R229). -/
def wrapZone (z : Int) (zones : Nat) : Int :=
  if z < 0 then z + zones else z

/-- The even latitude candidate (44_cpr.md R223). -/
def phiEven (ties : RoundTies) (yEven yOdd : Frac) : Frac :=
  recenter (fracDivNat (fracAddInt (wrapZone (zPhi ties yEven yOdd) 60) yEven) 60)

/-- The odd latitude candidate (44_cpr.md R223). -/
def phiOdd (ties : RoundTies) (yEven yOdd : Frac) : Frac :=
  recenter (fracDivNat (fracAddInt (wrapZone (zPhi ties yEven yOdd) 59) yOdd) 59)

/-- L_59 down to L_45 (44_cpr.md R226), the printed decimals as exact fractions. -/
def nlRows0 : List (Nat × Frac) :=
  [(59, ⟨2908464249991326300705, 10 ^ 23⟩),
   (58, ⟨4118937324635418894086, 10 ^ 23⟩),
   (57, ⟨5051739880753939176776, 10 ^ 23⟩),
   (56, ⟨5841498590563706493725, 10 ^ 23⟩),
   (55, ⟨6540290240436500336952, 10 ^ 23⟩),
   (54, ⟨7174790852941265169967, 10 ^ 23⟩),
   (53, ⟨7760829750338657015128, 10 ^ 23⟩),
   (52, ⟨8308710238143994853558, 10 ^ 23⟩),
   (51, ⟨8825582521336394412885, 10 ^ 23⟩),
   (50, ⟨9316648434162625929208, 10 ^ 23⟩),
   (49, ⟨9785832216101239704495, 10 ^ 23⟩),
   (48, ⟨1023618085442651858441, 10 ^ 22⟩),
   (47, ⟨1067011636781195635015, 10 ^ 22⟩),
   (46, ⟨1108960190092747844165, 10 ^ 22⟩),
   (45, ⟨1149625508961189531705, 10 ^ 22⟩)]

/-- L_44 down to L_30 (44_cpr.md R226), the printed decimals as exact fractions. -/
def nlRows1 : List (Nat × Frac) :=
  [(44, ⟨1189142781178768425824, 10 ^ 22⟩),
   (43, ⟨1227626375394253980922, 10 ^ 22⟩),
   (42, ⟨1265174089627848219626, 10 ^ 22⟩),
   (41, ⟨1301870347916324374823, 10 ^ 22⟩),
   (40, ⟨1337788646693514805692, 10 ^ 22⟩),
   (39, ⟨137299345534880658502, 10 ^ 21⟩),
   (38, ⟨1407541712653845986156, 10 ^ 22⟩),
   (37, ⟨1441484019213551725102, 10 ^ 22⟩),
   (36, ⟨1474865597998893320655, 10 ^ 22⟩),
   (35, ⟨1507727075631366385611, 10 ^ 22⟩),
   (34, ⟨1540105123470850112874, 10 ^ 22⟩),
   (33, ⟨157203298783498186236, 10 ^ 21⟩),
   (32, ⟨1603540931629479774148, 10 ^ 22⟩),
   (31, ⟨1634656604485686488541, 10 ^ 22⟩),
   (30, ⟨1665405354637235218054, 10 ^ 22⟩)]

/-- L_29 down to L_15 (44_cpr.md R226), the printed decimals as exact fractions. -/
def nlRows2 : List (Nat × Frac) :=
  [(29, ⟨1695810492846211940672, 10 ^ 22⟩),
   (28, ⟨1725893516447317427644, 10 ^ 22⟩),
   (27, ⟨1755674299828316188824, 10 ^ 22⟩),
   (26, ⟨1785171256268736197561, 10 ^ 22⟩),
   (25, ⟨181440147491169396692, 10 ^ 21⟩),
   (24, ⟨1843380835661841102134, 10 ^ 22⟩),
   (23, ⟨1872124103912409913351, 10 ^ 22⟩),
   (22, ⟨1900645006134261005174, 10 ^ 22⟩),
   (21, ⟨1928956286428897686244, 10 ^ 22⟩),
   (20, ⟨1957069743052113138948, 10 ^ 22⟩),
   (19, ⟨1984996242508052801653, 10 ^ 22⟩),
   (18, ⟨2012745706869153335887, 10 ^ 22⟩),
   (17, ⟨2040327067129964153217, 10 ^ 22⟩),
   (16, ⟨2067748171034761897762, 10 ^ 22⟩),
   (15, ⟨2095015626848156337456, 10 ^ 22⟩)]

/-- L_14 down to L_2 (44_cpr.md R226), the printed decimals as exact fractions. -/
def nlRows3 : List (Nat × Frac) :=
  [(14, ⟨2122134552998464796112, 10 ^ 22⟩),
   (13, ⟨2149108183702275671391, 10 ^ 22⟩),
   (12, ⟨2175937245256320054174, 10 ^ 22⟩),
   (11, ⟨2202618951515813997538, 10 ^ 22⟩),
   (10, ⟨2229145337022365447027, 10 ^ 22⟩),
   (9, ⟨2255500374797764225878, 10 ^ 22⟩),
   (8, ⟨2281654716808502536361, 10 ^ 22⟩),
   (7, ⟨2307555401311060081749, 10 ^ 22⟩),
   (6, ⟨2333103767494601806539, 10 ^ 22⟩),
   (5, ⟨2358101719639468600517, 10 ^ 22⟩),
   (4, ⟨2382094894706783183153, 10 ^ 22⟩),
   (3, ⟨2403760277086694815345, 10 ^ 22⟩),
   (2, ⟨29, 120⟩)]

/-- The thresholds (n, L_n) of 44_cpr.md R226, from the smallest L_n, n = 59, to the largest, n = 2. R226: an
approximation of L_n with error below 1e-10 gives exactly the NL of R225 for every latitude CPR_DECODE can form
(log entry 8). -/
def nlTable : List (Nat × Frac) :=
  nlRows0 ++ nlRows1 ++ nlRows2 ++ nlRows3

/-- |phi| folded into [0, 1/4] (44_cpr.md R225). -/
def foldLatitude (phi : Frac) : Frac :=
  let f : Frac := ⟨phi.num.natAbs, phi.den⟩
  if fracLt ⟨1, 4⟩ f then fracSub ⟨1, 2⟩ f else f

/-- NL, the number of longitude zones (44_cpr.md R225, R226): the greatest n in 2..59 with f < L_n, and 1 when
f >= 29/120 = L_2. The table runs from n = 59 down, so the first row that holds is the greatest n. -/
def nl (phi : Frac) : Nat :=
  match nlTable.find? fun row => fracLt (foldLatitude phi) row.2 with
  | some row => row.1
  | none => 1

/-- The longitude for n = NL(phi) zones (44_cpr.md R229); `mr` true selects the odd half. -/
def cprLongitude (ties : RoundTies) (mr : Bool) (n : Nat) (xEven xOdd : Frac) : Frac :=
  let xSel := if mr then xOdd else xEven
  if n = 1 then recenter xSel
  else
    let ni := if mr then n - 1 else n
    let zLambda := fracRound ties (fracSub (fracMulInt xEven (n - 1 : Nat)) (fracMulInt xOdd n))
    recenter (fracDivNat (fracAddInt (wrapZone zLambda ni) xSel) ni)

/-- The decoded pair, in T32 units (44_cpr.md R230, R231): latitude and longitude, or `none` for absent. -/
def cprSolve (ties : RoundTies) (mr : Bool) (x0 y0 x1 y1 : CprField) : Option (Int × Int) :=
  let even := phiEven ties (cprFrac y0) (cprFrac y1)
  let odd := phiOdd ties (cprFrac y0) (cprFrac y1)
  let phi := if mr then odd else even
  let phiOther := if mr then even else odd
  let n := nl phi
  if n ≠ nl phiOther then none
  else
    let lambda := cprLongitude ties mr n (cprFrac x0) (cprFrac x1)
    let lat := fracRound ties (fracMulInt phi (2 ^ 32))
    let lon := fracRound ties (fracMulInt lambda (2 ^ 32))
    if lat < -(2 ^ 30) ∨ lat > 2 ^ 30 then none else some (lat, lon)

/-- RES of a decoded pair (30_encoding.md R94): latitude in the high half, longitude in the low half. -/
def packPosition (lat lon : Int) : DWord :=
  BitVec.ofInt 32 lat ++ BitVec.ofInt 32 lon

/-- CPR_DECODE (44_cpr.md R230): mr is bit 0 of the A field. -/
def execCprDecode (a : Byte) (s : State) : Result :=
  match cprSolve Config.roundTies (a.getLsbD 0) s.cprX0 s.cprY0 s.cprX1 s.cprY1 with
  | some (lat, lon) => .next (setPresent (packPosition lat lon) s)
  | none => .next (setAbsent s)

end Sys2Proof.Machine
end

