-- ==== Sys2Proof/Machine/RawFrame.lean ====
section
/-!
DEFINITION. The RawFrame, dispatch and FIFO commands (43_rawframe.md).
-/

namespace Sys2Proof.Machine

/-- NOP (43_rawframe.md R198): RES and STATUS are unchanged. -/
def execNop (s : State) : Result :=
  .next s

/-- RF_OF (43_rawframe.md R190): length, timestamp, then the CRC gate. -/
def execRfOf (s : State) : Result :=
  if s.blen.val ≠ 14 then .next (raiseCmd .frameLength s)
  else if s.ts.msb then .next (raiseCmd .negTimestamp s)
  else if crc (bbufFrame s).toList ≠ 0 then .next (setAbsent (dropFrame s))
  else .next (setPresent 0 (loadFrame { ts := s.ts, bytes := bbufFrame s } s))

/-- `needFrame` (43_rawframe.md, helpers): an accessor faults NO_FRAME when FR_VALID = 0, and otherwise goes on. -/
def needFrame (s : State) (k : State) : Result :=
  if s.frValid then .next k else .next (raiseCmd .noFrame s)

/-- RF_DF (43_rawframe.md R191). -/
def execRfDf (s : State) : Result :=
  needFrame s (setPresent (s.fr.df.setWidth 64) s)

/-- RF_ICAO (43_rawframe.md R192). -/
def execRfIcao (s : State) : Result :=
  needFrame s (setPresent (s.fr.icao.setWidth 64) s)

/-- RF_ME (43_rawframe.md R193). -/
def execRfMe (s : State) : Result :=
  needFrame s (setPresent (s.fr.payload.setWidth 64) s)

/-- RF_TC (43_rawframe.md R194). -/
def execRfTc (s : State) : Result :=
  needFrame s (setPresent (s.fr.typeCode.setWidth 64) s)

/-- RF_CLASS (43_rawframe.md R195): absent for class 0. -/
def execRfClass (s : State) : Result :=
  let c := dispatchClass s.fr.typeCode.toNat
  needFrame s (if c = 0 then setAbsent s else setPresent (BitVec.ofNat 64 c) s)

/-- RF_CPRLOAD (43_rawframe.md R196): only the half named by the parity is written. -/
def execRfCprload (s : State) : Result :=
  needFrame s
    (if dispatchClass s.fr.typeCode.toNat ≠ 2 then setAbsent s
     else if s.fr.cprOdd then setPresent 1 (setCprOdd s.fr.cprLon s.fr.cprLat s)
     else setPresent 0 (setCprEven s.fr.cprLon s.fr.cprLat s))

/-- FIFO_POP (43_rawframe.md R199): the result is the number of entries still queued. -/
def execFifoPop (s : State) : Result :=
  match s.fifo with
  | [] => .next (raiseCmd .fifoEmpty s)
  | e :: rest => .next (setPresent (BitVec.ofNat 64 rest.length) (loadFrame e { s with fifo := rest }))

end Sys2Proof.Machine
end

