-- ==== Sys2Proof/Machine/Dispatch.lean ====
section
/-! DEFINITION. One arm per command: a call of its meaning. -/

namespace Sys2Proof.Machine

def exec (i : Instr) (s : State) : Host.Outcome State Fault Refusal :=
  match i with
  | .nop => Sys2Proof.Machine.execNop s
  | .bvExtract start size => Sys2Proof.Machine.execBvExtract start size s
  | .bvTestbit index => Sys2Proof.Machine.execBvTestbit index s
  | .bsLength => Sys2Proof.Machine.execBsLength s
  | .bsByteat index => Sys2Proof.Machine.execBsByteat index s
  | .bsRange lo hi => Sys2Proof.Machine.execBsRange lo hi s
  | .crcTable entry => Sys2Proof.Machine.execCrcTable entry s
  | .crcCompute => Sys2Proof.Machine.execCrcCompute s
  | .rfOf => Sys2Proof.Machine.execRfOf s
  | .rfDf => Sys2Proof.Machine.execRfDf s
  | .rfIcao => Sys2Proof.Machine.execRfIcao s
  | .rfMe => Sys2Proof.Machine.execRfMe s
  | .rfTc => Sys2Proof.Machine.execRfTc s
  | .rfClass => Sys2Proof.Machine.execRfClass s
  | .rfCprload => Sys2Proof.Machine.execRfCprload s
  | .cprDecode a => Sys2Proof.Machine.execCprDecode a s
  | .fifoPop => Sys2Proof.Machine.execFifoPop s

end Sys2Proof.Machine
end

