-- ==== Sys2Proof/Machine/Bus.lean ====
section
/-!
DEFINITION. The host's register interface: the register map, reads, writes, and the command a CMD write runs
(10_state.md section 2, 20_memory.md, 60_exceptions.md).
-/

namespace Sys2Proof.Machine

/-- The host-visible registers (10_state.md R22). -/
inductive Reg where
  | ctrl
  | status
  | cmd
  | faultInfo
  | opaLo
  | opaHi
  | resLo
  | resHi
  | tsLo
  | tsHi
  | blen
  | bbuf0
  | bbuf1
  | bbuf2
  | bbuf3
  | cprX0
  | cprY0
  | cprX1
  | cprY1
  | frTsLo
  | frTsHi
  | frW0
  | frW1
  | frW2
  | frW3
  | posLo
  | posHi
  deriving DecidableEq, Repr

/-- The register at an offset (10_state.md R22); the other offsets are unmapped (20_memory.md R62). -/
def regAt (addr : Byte) : Option Reg :=
  match addr.toNat with
  | 0x00 => some .ctrl
  | 0x04 => some .status
  | 0x08 => some .cmd
  | 0x0C => some .faultInfo
  | 0x10 => some .opaLo
  | 0x14 => some .opaHi
  | 0x18 => some .resLo
  | 0x1C => some .resHi
  | 0x20 => some .tsLo
  | 0x24 => some .tsHi
  | 0x28 => some .blen
  | 0x30 => some .bbuf0
  | 0x34 => some .bbuf1
  | 0x38 => some .bbuf2
  | 0x3C => some .bbuf3
  | 0x40 => some .cprX0
  | 0x44 => some .cprY0
  | 0x48 => some .cprX1
  | 0x4C => some .cprY1
  | 0x50 => some .frTsLo
  | 0x54 => some .frTsHi
  | 0x58 => some .frW0
  | 0x5C => some .frW1
  | 0x60 => some .frW2
  | 0x64 => some .frW3
  | 0x68 => some .posLo
  | 0x6C => some .posHi
  | _ => none

/-- The register an access of this size and offset reaches, if the access is legal but for the register's own access
right (20_memory.md R61): size 4, offset a multiple of 4, mapped. -/
def accessReg (size : AccessSize) (addr : Byte) : Option Reg :=
  if size = .b4 ∧ addr.toNat % 4 = 0 then regAt addr else none

/-- The value a legal read returns (10_state.md R23-R33, R41; reserved bits read 0, R34). -/
def readReg (r : Reg) (s : State) : Word :=
  match r with
  | .ctrl => ctrlWord s
  | .status => statusWord s
  | .cmd => s.cmd
  | .faultInfo => s.faultInfo
  | .opaLo => loHalf s.opa
  | .opaHi => hiHalf s.opa
  | .resLo => loHalf s.res
  | .resHi => hiHalf s.res
  | .tsLo => loHalf s.ts
  | .tsHi => hiHalf s.ts
  | .blen => BitVec.ofNat 32 s.blen.val
  | .bbuf0 => bbufWord 0 s
  | .bbuf1 => bbufWord 1 s
  | .bbuf2 => bbufWord 2 s
  | .bbuf3 => bbufWord 3 s
  | .cprX0 => s.cprX0.setWidth 32
  | .cprY0 => s.cprY0.setWidth 32
  | .cprX1 => s.cprX1.setWidth 32
  | .cprY1 => s.cprY1.setWidth 32
  | .frTsLo => loHalf s.fr.ts
  | .frTsHi => hiHalf s.fr.ts
  | .frW0 => packBytes s.fr.bytes[0] s.fr.bytes[1] s.fr.bytes[2] s.fr.bytes[3]
  | .frW1 => packBytes s.fr.bytes[4] s.fr.bytes[5] s.fr.bytes[6] s.fr.bytes[7]
  | .frW2 => packBytes s.fr.bytes[8] s.fr.bytes[9] s.fr.bytes[10] s.fr.bytes[11]
  | .frW3 => packBytes s.fr.bytes[12] s.fr.bytes[13] 0 0
  | .posLo => loHalf s.pos
  | .posHi => hiHalf s.pos

/-- A write of CTRL (10_state.md R23): SRST performs only the soft reset; otherwise DEMOD_EN is stored. -/
def writeCtrl (v : Word) (s : State) : State :=
  if v.getLsbD 1 then softReset s else { s with demodEn := v.getLsbD 0 }

/-- A write of BLEN (10_state.md R30): a value above 16 faults with cause BLEN_RANGE and leaves BLEN. -/
def writeBlen (v : Word) (s : State) : State :=
  if h : v.toNat ≤ 16 then { s with blen := ⟨v.toNat, Nat.lt_succ_of_le h⟩ }
  else raiseFault .blenRange (busInfo true .b4 0x28) s

/-- A write of CMD (10_state.md R25): the word is stored, then decoded, and its command runs in the same step; an
illegal word faults with cause ILLEGAL_CMD (30_encoding.md R82, 60_exceptions.md R262). -/
def runCommand (w : Word) (s : State) : Result :=
  let t := { s with cmd := w }
  match decode w with
  | .ok i => exec i t
  | .error _ => .next (raiseFault .illegalCmd w t)

/-- The fault of a write that is not legal (20_memory.md R61, R63). -/
def badWrite (size : AccessSize) (addr : Byte) (s : State) : Result :=
  .next (raiseFault .badReg (busInfo true size addr) s)

/-- A 4-byte write that reaches register `r` at offset `addr` (20_memory.md R61, R66): a read-only register faults
(R63), CTRL, CMD and BLEN act, every other register stores its value, reserved bits dropped (10_state.md R34). -/
def writeReg (r : Reg) (addr : Byte) (v : Word) (s : State) : Result :=
  match r with
  | .ctrl => .next (writeCtrl v s)
  | .cmd => runCommand v s
  | .opaLo => .next { s with opa := withLo s.opa v }
  | .opaHi => .next { s with opa := withHi s.opa v }
  | .tsLo => .next { s with ts := withLo s.ts v }
  | .tsHi => .next { s with ts := withHi s.ts v }
  | .blen => .next (writeBlen v s)
  | .bbuf0 => .next (setBbufWord 0 v s)
  | .bbuf1 => .next (setBbufWord 1 v s)
  | .bbuf2 => .next (setBbufWord 2 v s)
  | .bbuf3 => .next (setBbufWord 3 v s)
  | .cprX0 => .next { s with cprX0 := v.setWidth 17 }
  | .cprY0 => .next { s with cprY0 := v.setWidth 17 }
  | .cprX1 => .next { s with cprX1 := v.setWidth 17 }
  | .cprY1 => .next { s with cprY1 := v.setWidth 17 }
  | .status => badWrite .b4 addr s
  | .faultInfo => badWrite .b4 addr s
  | .resLo => badWrite .b4 addr s
  | .resHi => badWrite .b4 addr s
  | .frTsLo => badWrite .b4 addr s
  | .frTsHi => badWrite .b4 addr s
  | .frW0 => badWrite .b4 addr s
  | .frW1 => badWrite .b4 addr s
  | .frW2 => badWrite .b4 addr s
  | .frW3 => badWrite .b4 addr s
  | .posLo => badWrite .b4 addr s
  | .posHi => badWrite .b4 addr s

/-- MemRead (20_memory.md R61, 60_exceptions.md R266): a legal read returns the register; an illegal one returns 0 and
faults, unless a fault is recorded already. -/
def busRead (size : AccessSize) (addr : Byte) (s : State) : Result :=
  match accessReg size addr with
  | some r => .next (returnData (readReg r s) s)
  | none =>
    if s.fault then .next (returnData 0 s)
    else .next (returnData 0 (raiseFault .badReg (busInfo false size addr) s))

/-- MemWrite (20_memory.md R61, 60_exceptions.md R266): while FAULT = 1 only a 4-byte write at offset 0x00 acts. -/
def busWrite (size : AccessSize) (addr : Byte) (v : Word) (s : State) : Result :=
  if s.fault && !decide (addr = 0x00 ∧ size = .b4) then .next s
  else
    match accessReg size addr with
    | some r => writeReg r addr v s
    | none => badWrite size addr s

/-- One host access (10_state.md R20). -/
def hostAccess (a : Access) (s : State) : Result :=
  match a with
  | .read size addr => busRead size addr s
  | .write size addr v => busWrite size addr v s

/-- The host's turn: its next access. -/
def hostTurn (s : State) : Result :=
  hostAccess (nextAccess s) (takeAccess (takeTurn s))

/-- The environment with a write of command word `w` placed as the next step. -/
def placeCommand (w : Word) (s : State) : State :=
  { s with turns := .host :: s.turns, accesses := .write .b4 0x08 w :: s.accesses }

end Sys2Proof.Machine
end

