-- ==== Sys2Proof/Machine/Demod.lean ====
section
/-!
DEFINITION. The power window and the demodulator (42_demod.md sections 3 and 4). The functions of the power stream
take it as a list, P[0] first.
-/

namespace Sys2Proof.Machine

/-- P[q], with P[q] = 0 for q < 0 (42_demod.md R164). The demodulator never asks beyond NP (R160). -/
def powerAt (P : List Nat) (q : Int) : Nat :=
  if q < 0 then 0 else P.getD q.toNat 0

/-- The preamble sum sigma(q) (42_demod.md R164). -/
def sigma (P : List Nat) (q : Int) : Nat :=
  powerAt P q + powerAt P (q + 10) + powerAt P (q + 35) + powerAt P (q + 45)

/-- The valley sum sigmaV(p) (42_demod.md R164). -/
def sigmaV (P : List Nat) (p : Int) : Nat :=
  powerAt P (p + 5) + powerAt P (p + 15) + powerAt P (p + 20) + powerAt P (p + 25) + powerAt P (p + 30) +
    powerAt P (p + 40)

/-- Frame bit i at window position p (42_demod.md R165): equal powers give 1. -/
def bitAt (P : List Nat) (p i : Nat) : Bool :=
  !decide (powerAt P (p + 80 + 10 * i : Nat) < powerAt P (p + 85 + 10 * i : Nat))

/-- The downlink format of the window (42_demod.md R165). -/
def windowDf (P : List Nat) (p : Nat) : Nat :=
  16 * (bitAt P p 0).toNat + 8 * (bitAt P p 1).toNat + 4 * (bitAt P p 2).toNat + 2 * (bitAt P p 3).toNat +
    (bitAt P p 4).toNat

/-- Byte k of the frame at p: bits 8k..8k+7, most significant first (42_demod.md R165, 30_encoding.md R90). -/
def frameByte (P : List Nat) (p k : Nat) : Byte :=
  BitVec.ofBool (bitAt P p (8 * k)) ++ BitVec.ofBool (bitAt P p (8 * k + 1)) ++
    BitVec.ofBool (bitAt P p (8 * k + 2)) ++ BitVec.ofBool (bitAt P p (8 * k + 3)) ++
    BitVec.ofBool (bitAt P p (8 * k + 4)) ++ BitVec.ofBool (bitAt P p (8 * k + 5)) ++
    BitVec.ofBool (bitAt P p (8 * k + 6)) ++ BitVec.ofBool (bitAt P p (8 * k + 7))

/-- The 14 bytes of the frame at p (42_demod.md R165). -/
def frameBytes (P : List Nat) (p : Nat) : Vector Byte 14 :=
  Vector.ofFn fun k => frameByte P p k.val

/-- The preamble sum peaks at p (42_demod.md R165). -/
def peak (P : List Nat) (p : Nat) : Bool :=
  decide (sigma P ((p : Int) - 1) < sigma P p) && decide (sigma P p > sigma P ((p : Int) + 1))

/-- The preamble stands out of its valleys at p (42_demod.md R165). -/
def valley (P : List Nat) (p : Nat) : Bool :=
  decide (sigma P p ≥ 2 * sigmaV P p)

/-- The candidate test at p (42_demod.md R165). -/
def candidate (P : List Nat) (p : Nat) : Bool :=
  peak P p && valley P p && decide (windowDf P p = Config.dfAdsb)

/-- The frame at p is accepted (42_demod.md R165). -/
def accept (P : List Nat) (p : Nat) : Bool :=
  candidate P p && decide (crc (frameBytes P p).toList = 0)

/-- The window is full (42_demod.md R160). -/
def windowFull (s : State) : Bool :=
  decide (s.pos.toNat + Config.windowSize ≤ s.power.length)

/-- The entry an accepted position appends (42_demod.md R166). -/
def frameAt (P : List Nat) (p : Nat) : Frame where
  ts := BitVec.ofNat 64 (p * Config.samplePeriodNs)
  bytes := frameBytes P p

/-- The evaluation of one full window (42_demod.md R166-R169). -/
def evalWindow (s : State) : State :=
  if s.pos.toNat * Config.samplePeriodNs > 2 ^ 63 - 1 then raiseFault .tsOverflow 0 s
  else if accept s.power s.pos.toNat then
    setPos (s.pos + BitVec.ofNat 64 Config.windowSize) (pushFrame (frameAt s.power s.pos.toNat) s)
  else setPos (s.pos + 1) s

/-- The Demodulator step (42_demod.md R169, R172). -/
def demodStep (s : State) : State :=
  if windowFull s then evalWindow s else { s with done := true }

/-- The Demodulator has a step (42_demod.md R170). -/
def demodEnabled (s : State) : Bool :=
  s.demodEn && !s.fault && !s.done &&
    ((windowFull s && decide (s.fifo.length < Config.fifoDepth)) || (!windowFull s && s.eos))

/-- The Demodulator's turn: an enabled step is taken; otherwise it waits (42_demod.md R170). -/
def demodTurn (s : State) : State :=
  let t := takeTurn s
  if demodEnabled s then demodStep t else t

end Sys2Proof.Machine
end

