-- ==== Sys2Proof/Machine/Stream.lean ====
section
/-!
DEFINITION. The Source's step, the sample decoder and the power FIR (42_demod.md sections 1 and 2).
-/

namespace Sys2Proof.Machine

/-- The FIR's even-tap sum p1 (42_demod.md R152). -/
def firP1 (h : Vector Int 8) : Int := h[0] - h[2] + h[4] - h[6]

/-- The FIR's odd-tap sum p2 (42_demod.md R152). -/
def firP2 (h : Vector Int 8) : Int := h[1] - h[3] + h[5] - h[7]

/-- The power value of a history (42_demod.md R152): p1*p1 + p2*p2, exact and never negative. -/
def firPower (h : Vector Int 8) : Nat :=
  (firP1 h * firP1 h + firP2 h * firP2 h).toNat

/-- The history after a pair of samples (42_demod.md R152). -/
def shiftHist (h : Vector Int 8) (first second : Int) : Vector Int 8 :=
  #v[h[2], h[3], h[4], h[5], h[6], h[7], first, second]

/-- The FIR step (42_demod.md R152). -/
def firSample (x : Int) (s : State) : State :=
  match s.half with
  | none => { s with half := some x }
  | some h =>
    let hist' := shiftHist s.hist h x
    { s with hist := hist', half := none, power := s.power ++ [firPower hist'] }

/-- The sample of a little-endian byte pair (42_demod.md R150, 30_encoding.md R88): exact, no wrap (R151). -/
def sampleOf (lo hi : Byte) : Int :=
  ((hi ++ lo : BitVec 16).toNat : Int) - Config.sampleBias

/-- The Source delivers a byte (42_demod.md R150). -/
def sourceByte (b : Byte) (s : State) : State :=
  match s.lowByte with
  | none => { s with lowByte := some b }
  | some lo => firSample (sampleOf lo b) { s with lowByte := none, nSamples := s.nSamples + 1 }

/-- The internal buffer has room for a byte (10_state.md R44). -/
def bufferHasRoom (s : State) : Bool :=
  if s.pos = 0 then decide (s.power.length < Config.pbufCap)
  else decide ((s.power.length : Int) - ((s.pos.toNat : Int) - 1) < Config.pbufCap)

/-- The Source has a step that delivers this item (10_state.md R44): a byte needs room, end of stream does not. -/
def sourceEnabled (i : SourceItem) (s : State) : Bool :=
  !s.fault && !s.eos &&
    (match i with
     | .byte _ => bufferHasRoom s
     | .endOfStream => true)

/-- The effect of a Source step (10_state.md R44, 42_demod.md R150). End of stream sets EOS and discards a byte waiting
in `lowByte` and a sample waiting in `half` (R156). -/
def sourceItem (i : SourceItem) (s : State) : State :=
  match i with
  | .byte b => sourceByte b s
  | .endOfStream => endStream s

/-- The Source's turn: an enabled step delivers the next item; a Source with no step leaves the stream unconsumed
(10_state.md R44, 60_exceptions.md R263). -/
def sourceTurn (s : State) : State :=
  let i := nextItem s
  let t := takeTurn s
  if sourceEnabled i s then sourceItem i (takeItem t) else t

end Sys2Proof.Machine
end

