-- ==== Sys2Proof/Machine/Step.lean ====
section
/-!
DEFINITION. One step of the machine: one step of the agent whose turn it is (10_state.md R20).
-/

namespace Sys2Proof.Machine

/-- One step. An agent whose turn it is but which has no step leaves the block as it is (log entry 4). -/
def step (s : State) : Host.Outcome State Fault Refusal :=
  match nextAgent s with
  | .host => hostTurn s
  | .source => .next (sourceTurn s)
  | .demodulator => .next (demodTurn s)

/-- `s` with the command in the low `nbits` bits of `w` placed as its next step: the block fetches nothing
(10_state.md R21), a command runs when the host writes its word to CMD (R25), so the host's turn and that write are
placed first. A command is one 32-bit word (30_encoding.md R80). Nothing else changes; while STATUS.FAULT = 1 the
write is ignored, as R25 says (log entry 10). -/
def State.withFetchWord (s : State) (nbits w : Nat) : State :=
  placeCommand (BitVec.ofNat 32 (w % 2 ^ nbits)) s

end Sys2Proof.Machine
end

