-- ==== Sys2Proof/Safety.lean ====
section
/-!
DEFINITION. The terms in which claims about runs are stated: the outcome of a state, the invariant of the machine,
and the stream a run has taken in and the frames it has appended.
-/

namespace Sys2Proof.Machine

/-- What a run has come to (60_exceptions.md R264): a fault's outcome is `faulted cause info`, distinct from every
normal state. -/
inductive RunOutcome where
  | normal
  | faulted (cause : FaultCause) (info : Word)
  deriving DecidableEq, Repr

/-- The outcome of a state (60_exceptions.md R264). -/
def State.outcome (s : State) : RunOutcome :=
  if s.fault then .faulted s.faultCause s.faultInfo else .normal

/-- The run has ended normally (42_demod.md R173). -/
def State.ended (s : State) : Bool := s.done && !s.fault

/-- The run has ended and its FIFO is drained (42_demod.md R173). -/
def State.drained (s : State) : Bool := s.ended && s.fifo.isEmpty

/-- The block is as after a reset, whatever is outside it (10_state.md R45). -/
def State.fresh (s : State) : Prop := s = softReset s

/-- The invariant of the machine: what holds in every state a run reaches. -/
structure State.Inv (s : State) : Prop where
  /-- The FIFO holds at most FIFO_DEPTH entries (10_state.md R36, 42_demod.md R171). -/
  fifoBounded : s.fifo.length ≤ Config.fifoDepth
  /-- Every queued frame has CRC 0 and DF 17 (42_demod.md R175). -/
  fifoFrames : ∀ f ∈ s.fifo, crc f.bytes.toList = 0 ∧ f.df.toNat = Config.dfAdsb
  /-- Every queued frame was found at a window position at least W before POS, and its timestamp is that position
  times 100 (42_demod.md R166). -/
  fifoTimes : ∀ f ∈ s.fifo, ∃ p : Nat,
    f.ts.toNat = p * Config.samplePeriodNs ∧ p + Config.windowSize ≤ s.pos.toNat
  /-- The timestamps of queued frames differ by at least W * 100 (42_demod.md R175). -/
  fifoSpaced : s.fifo.Pairwise fun a b =>
    a.ts.toNat + Config.windowSize * Config.samplePeriodNs ≤ b.ts.toNat
  /-- A valid frame register holds an accepted frame with a non-negative timestamp (10_state.md R33,
  41_crc24.md R136). -/
  frValidFrame : s.frValid = true → crc s.fr.bytes.toList = 0 ∧ s.fr.ts.msb = false
  /-- With no fault recorded, the cause and the information are 0 (60_exceptions.md R260). -/
  faultClear : s.fault = false → s.faultCause = .none ∧ s.faultInfo = 0
  /-- A recorded fault has a cause (60_exceptions.md R262). -/
  faultCause : s.fault = true → s.faultCause ≠ .none
  /-- Two samples make a power sample (42_demod.md R152, R156). -/
  powersCounted : s.nSamples / 2 = s.power.length
  /-- Until end of stream an odd sample waits in `half` (42_demod.md R152). -/
  samplesCounted : s.eos = false → s.nSamples = 2 * s.power.length + s.half.toList.length
  /-- After end of stream no byte and no sample waits (42_demod.md R156). -/
  remaindersDiscarded : s.eos = true → s.lowByte = none ∧ s.half = none
  /-- The samples of the history are in range (10_state.md R38). -/
  histRange : ∀ x ∈ s.hist.toList, -2048 ≤ x ∧ x ≤ 63487
  /-- The waiting sample is in range (10_state.md R38). -/
  halfRange : ∀ x, s.half = some x → -2048 ≤ x ∧ x ≤ 63487
  /-- Every power sample is at most 2 * 131070^2 (42_demod.md R155). -/
  powerRange : ∀ v ∈ s.power, v ≤ 34358689800
  /-- The window position never passes the power stream (42_demod.md R169). -/
  posInStream : s.pos.toNat ≤ s.power.length
  /-- POS stays below 2^63 / 100 + W (42_demod.md R168). -/
  posBounded : s.pos.toNat ≤ 92233720368547758 + Config.windowSize
  /-- The internal buffer never holds more than PBUF_CAP power samples (10_state.md R44, 42_demod.md R162). -/
  bufferBounded : (s.power.length : Int) - max ((s.pos.toNat : Int) - 1) 0 ≤ Config.pbufCap
  /-- DONE means the stream has ended and the window is not full (42_demod.md R172). -/
  doneEnded : s.done = true → s.eos = true ∧ s.power.length < s.pos.toNat + Config.windowSize

/-- The next step is the host's write that performs a soft reset (70_reset_and_hazards.md R292). -/
def softResetNext (s : State) : Bool :=
  match nextAgent s, nextAccess s with
  | .host, .write size addr v => decide (size = .b4 ∧ addr = 0x00) && v.getLsbD 1
  | _, _ => false

/-- The bytes the next step takes from the Source (10_state.md R44): one or none. -/
def deliveredNext (s : State) : List Byte :=
  match nextAgent s, nextItem s with
  | .source, .byte b => if sourceEnabled (.byte b) s then [b] else []
  | _, _ => []

/-- The frames the next step appends to the FIFO (42_demod.md R169): one or none. -/
def appendedNext (s : State) : List Frame :=
  match nextAgent s with
  | .demodulator =>
    if demodEnabled s && windowFull s && decide (s.pos.toNat * Config.samplePeriodNs ≤ 2 ^ 63 - 1) &&
        accept s.power s.pos.toNat
    then [frameAt s.power s.pos.toNat] else []
  | _ => []

/-- The stream runs of the machine (42_demod.md R173): `StreamRun bytes frames s` when a run from a reset has
delivered exactly `bytes`, appended exactly `frames`, and come to `s`. A soft reset starts a new stream
(70_reset_and_hazards.md R291). -/
inductive StreamRun : List Byte → List Frame → State → Prop where
  | fresh (s : State) (h : s.fresh) : StreamRun [] [] s
  | step {bytes : List Byte} {frames : List Frame} {s t : State} (run : StreamRun bytes frames s)
      (stays : softResetNext s = false) (h : Machine.step s = .next t) :
      StreamRun (bytes ++ deliveredNext s) (frames ++ appendedNext s) t

end Sys2Proof.Machine
end

