-- ==== Sys2Proof/Certificates/Slice0/Obligations.lean ====
section
/-!
DEFINITION. What is claimed of the machine, for the provers. The namespace Sys2Proof.Claims holds what the statements
are written with: the spec's own formulas, in plain arithmetic and not through the model's operations.
-/

namespace Sys2Proof.Claims

open Sys2Proof.Machine

/-- Fault entry as 60_exceptions.md R262 lists it. -/
def raised (c : FaultCause) (info : Word) (s : State) : State :=
  { s with fault := true, faultCause := c, faultInfo := info }

/-- `present(v)` (00_scope.md R13). -/
def presented (v : DWord) (s : State) : State := { s with res := v, present := true }

/-- `absent` (00_scope.md R13). -/
def absented (s : State) : State := { s with res := 0, present := false }

/-- A step of an agent that has none: the turn is used up, the block is as it was. -/
def idle (s : State) : State := { s with moves := s.moves + 1, turns := s.turns.tail }

/-- The state a host access acts on: the turn and the placed access are used up. -/
def accessed (s : State) : State :=
  { s with moves := s.moves + 1, turns := s.turns.tail, accesses := s.accesses.tail }

/-- The bytes of an access size. -/
def sizeBytes : AccessSize → Nat
  | .b1 => 1
  | .b2 => 2
  | .b4 => 4
  | .b8 => 8

/-- `w` is the one word of the command `i`: it decodes to `i`, and no other word does. -/
def encodedAs (i : Instr) (w : Word) : Prop := ∀ v : Word, decode v = .ok i ↔ v = w

/-- The mapped offsets of 10_state.md R22. -/
def mapped (addr : Byte) : Prop := addr.toNat % 4 = 0 ∧ addr.toNat ≤ 0x6C ∧ addr.toNat ≠ 0x2C

/-- The offsets of the read-only registers (20_memory.md R63). -/
def readOnlyOffsets : List Byte :=
  [0x04, 0x0C, 0x18, 0x1C, 0x50, 0x54, 0x58, 0x5C, 0x60, 0x64, 0x68, 0x6C]

/-- FAULT_INFO of a bad access (10_state.md R26): 0x80000000 | W << 30 | size << 8 | offset. -/
def badInfo (w : Nat) (size : AccessSize) (addr : Byte) : Word :=
  BitVec.ofNat 32 (0x80000000 + w * 0x40000000 + sizeBytes size * 0x100 + addr.toNat)

/-- The registers whose write only stores the value (20_memory.md R66), with the bits they keep. -/
def plainRegs : List (Reg × Word) :=
  [(.opaLo, 0xFFFFFFFF), (.opaHi, 0xFFFFFFFF), (.tsLo, 0xFFFFFFFF), (.tsHi, 0xFFFFFFFF),
   (.bbuf0, 0xFFFFFFFF), (.bbuf1, 0xFFFFFFFF), (.bbuf2, 0xFFFFFFFF), (.bbuf3, 0xFFFFFFFF),
   (.cprX0, 0x1FFFF), (.cprY0, 0x1FFFF), (.cprX1, 0x1FFFF), (.cprY1, 0x1FFFF)]

/-- The number of a frame's bytes lo..hi-1 read big-endian. -/
def beNat (bs : List Byte) (lo hi : Nat) : Nat :=
  ∑ j ∈ Finset.Ico lo hi, (bs.getD j 0).toNat * 256 ^ (hi - 1 - j)

/-- The value of every register but STATUS, by its offset (10_state.md R22-R33, R41). -/
def registerValues (s : State) : List (Byte × Word) :=
  let lo : DWord → Word := fun v => BitVec.ofNat 32 (v.toNat % 2 ^ 32)
  let hi : DWord → Word := fun v => BitVec.ofNat 32 (v.toNat / 2 ^ 32)
  let buf : Nat → Word := fun k => BitVec.ofNat 32 (beNat s.bbuf.toList (4 * k) (4 * k + 4))
  let frame : Nat → Word := fun k => BitVec.ofNat 32 (beNat s.fr.bytes.toList (4 * k) (4 * k + 4))
  [(0x00, if s.demodEn then 1 else 0), (0x08, s.cmd), (0x0C, s.faultInfo),
   (0x10, lo s.opa), (0x14, hi s.opa), (0x18, lo s.res), (0x1C, hi s.res), (0x20, lo s.ts), (0x24, hi s.ts),
   (0x28, BitVec.ofNat 32 s.blen.val), (0x30, buf 0), (0x34, buf 1), (0x38, buf 2), (0x3C, buf 3),
   (0x40, BitVec.ofNat 32 s.cprX0.toNat), (0x44, BitVec.ofNat 32 s.cprY0.toNat),
   (0x48, BitVec.ofNat 32 s.cprX1.toNat), (0x4C, BitVec.ofNat 32 s.cprY1.toNat),
   (0x50, lo s.fr.ts), (0x54, hi s.fr.ts), (0x58, frame 0), (0x5C, frame 1), (0x60, frame 2),
   (0x64, BitVec.ofNat 32 (beNat s.fr.bytes.toList 12 14 * 2 ^ 16)), (0x68, lo s.pos), (0x6C, hi s.pos)]

/-- The codes of the fault causes (60_exceptions.md R260). -/
def causeCodes : List (FaultCause × Byte) :=
  [(.none, 0x00), (.illegalCmd, 0x01), (.fieldRange, 0x02), (.bitIndex, 0x03), (.byteIndex, 0x04),
   (.byteSpan, 0x05), (.frameLength, 0x06), (.negTimestamp, 0x07), (.noFrame, 0x08), (.fifoEmpty, 0x09),
   (.badReg, 0x0A), (.blenRange, 0x0B), (.tsOverflow, 0x0C)]

/-- The dispatch class of a type code (43_rawframe.md, helpers). -/
def classOf (tc : Nat) : Nat :=
  if tc ∈ Finset.Icc 1 4 then 1
  else if tc ∈ Finset.Icc 9 18 ∪ Finset.Icc 20 22 then 2
  else if tc = 19 then 3 else 0

/-- The next step is a FIFO_POP that runs: the host writes its word to CMD and no fault is recorded. -/
def popNext (s : State) : Prop :=
  s.fault = false ∧ nextAgent s = .host ∧ nextAccess s = .write .b4 0x08 0x00000040

/-- The next step writes a command word that is decoded: CMD is written and no fault is recorded. -/
def commandNext (s : State) : Prop :=
  s.fault = false ∧ nextAgent s = .host ∧ ∃ w, nextAccess s = .write .b4 0x08 w

/-- The next step is a read of the host. -/
def readNext (s : State) : Prop :=
  nextAgent s = .host ∧ ∃ size addr, nextAccess s = .read size addr

/-- `s` with the stream units' state of `u`: enable, end-of-stream flags, position, FIFO, assembler, FIR, power
stream. -/
def withStream (s u : State) : State :=
  { s with
    demodEn := u.demodEn
    done := u.done
    eos := u.eos
    pos := u.pos
    fifo := u.fifo
    lowByte := u.lowByte
    nSamples := u.nSamples
    hist := u.hist
    half := u.half
    power := u.power }

/-- A function applied to the next state of a result. -/
def mapNext (f : State → State) : Result → Result
  | .next s => .next (f s)
  | .fault r => .fault r
  | .refused r => .refused r

/-- The buffer condition of 10_state.md R44. -/
def room (s : State) : Prop :=
  (s.pos.toNat = 0 ∧ s.power.length < Config.pbufCap) ∨
    (1 ≤ s.pos.toNat ∧ (s.power.length : Int) - ((s.pos.toNat : Int) - 1) < Config.pbufCap)

/-- The window is full (42_demod.md R160). -/
def full (s : State) : Prop := s.pos.toNat + 1200 ≤ s.power.length

/-- The Demodulator has a step (42_demod.md R170). -/
def demodHasStep (s : State) : Prop :=
  s.demodEn = true ∧ s.fault = false ∧ s.done = false ∧
    ((full s ∧ s.fifo.length < Config.fifoDepth) ∨ (¬ full s ∧ s.eos = true))

/-- P[q] as an exact value, 0 for q < 0 (42_demod.md R164). -/
def pAt (P : List Nat) (q : Int) : Nat := if q < 0 then 0 else P.getD q.toNat 0

/-- The sum of P at the given offsets from q. -/
def sumAt (P : List Nat) (q : Int) (offsets : List Nat) : Nat :=
  (offsets.map fun o => pAt P (q + o)).sum

/-- The acceptance test of 42_demod.md R165, with the sums of R164 written out; `bytes` is the window's frame. -/
def accepted (P : List Nat) (p : Nat) (bytes : Vector Byte 14) : Prop :=
  sumAt P ((p : Int) - 1) [0, 10, 35, 45] < sumAt P p [0, 10, 35, 45] ∧
    sumAt P ((p : Int) + 1) [0, 10, 35, 45] < sumAt P p [0, 10, 35, 45] ∧
    2 * sumAt P p [5, 15, 20, 25, 30, 40] ≤ sumAt P p [0, 10, 35, 45] ∧
    bytes[0].toNat / 8 = 17 ∧ crcBitwise bytes.toList = 0

/-- The window's frame (42_demod.md R165, 30_encoding.md R90): bit i of the frame, in reception order, is 0 exactly
when P[p + 80 + 10i] < P[p + 85 + 10i], and stands at bit 7 - i mod 8 of byte i / 8. -/
def isFrameOf (P : List Nat) (p : Nat) (bytes : Vector Byte 14) : Prop :=
  ∀ i : Fin 112, ((bytes.toList.getD (i.val / 8) 0).getLsbD (7 - i.val % 8) = false ↔
    P.getD (p + 80 + 10 * i.val) 0 < P.getD (p + 85 + 10 * i.val) 0)

/-- Sample j of a byte stream, 0 for j < 0 (42_demod.md R150, R153). -/
def sampleAt (bs : List Byte) (j : Int) : Int :=
  if j < 0 then 0
  else ((bs.getD (2 * j.toNat) 0).toNat : Int) + 256 * (bs.getD (2 * j.toNat + 1) 0).toNat - 2048

/-- Power sample n of a byte stream: the closed form of 42_demod.md R153. -/
def powerOf (bs : List Byte) (n : Nat) : Nat :=
  let x : Int → Int := sampleAt bs
  let m : Int := 2 * n
  ((x (m - 6) - x (m - 4) + x (m - 2) - x m) ^ 2 + (x (m - 5) - x (m - 3) + x (m - 1) - x (m + 1)) ^ 2).toNat

/-- The power stream of a byte stream (42_demod.md R156: floor(k / 4) power samples). -/
def powers (bs : List Byte) : List Nat := (List.range (bs.length / 4)).map (powerOf bs)

/-- The scan of 42_demod.md R174 from position p, on a given amount of fuel: every position takes one unit. -/
def scan (P : List Nat) : Nat → Nat → List Frame
  | 0, _ => []
  | fuel + 1, p =>
    if p + 1200 ≤ P.length then
      if accept P p then { ts := BitVec.ofNat 64 (p * 100), bytes := frameBytes P p } :: scan P fuel (p + 1200)
      else scan P fuel (p + 1)
    else []

/-- `frames(byte[0..k))` of 42_demod.md R174. Each position scanned advances by at least 1, so the fuel suffices. -/
def frames (bs : List Byte) : List Frame := scan (powers bs) ((powers bs).length + 1) 0

/-- The scan of 42_demod.md R174 over P, begun at position 0, comes to position p with these frames found. -/
inductive Scanned (P : List Nat) : List Frame → Nat → Prop where
  | start : Scanned P [] 0
  | found {fs : List Frame} {p : Nat} (h : Scanned P fs p) (full : p + 1200 ≤ P.length) (acc : accept P p = true) :
      Scanned P (fs ++ [{ ts := BitVec.ofNat 64 (p * 100), bytes := frameBytes P p }]) (p + 1200)
  | passed {fs : List Frame} {p : Nat} (h : Scanned P fs p) (full : p + 1200 ≤ P.length) (rej : accept P p = false) :
      Scanned P fs (p + 1)

/-- The state has come through the stream `bytes` from a reset and appended `fs` on the way: the assembler and the FIR
hold what the bytes leave, the remainders discarded once the stream has ended (42_demod.md R156), the power stream is
the closed form of the bytes, the scan stands at POS with `fs` found, and DONE means that the stream has ended and the
window is not full. -/
structure Follows (bytes : List Byte) (fs : List Frame) (s : State) : Prop where
  lowByte : s.lowByte = if s.eos then none else (bytes.foldl (fun u b => sourceByte b u) State.reset).lowByte
  nSamples : s.nSamples = bytes.length / 2
  hist : s.hist = (bytes.foldl (fun u b => sourceByte b u) State.reset).hist
  half : s.half = if s.eos then none else (bytes.foldl (fun u b => sourceByte b u) State.reset).half
  power : s.power = powers bytes
  scanned : Scanned (powers bytes) fs s.pos.toNat
  done : s.done = true → s.eos = true ∧ s.power.length < s.pos.toNat + 1200

/-- The sequences M and N combined byte by byte with XOR. -/
def xorBytes (ms ns : List Byte) : List Byte := List.zipWith (· ^^^ ·) ms ns

/-- `recenter` (44_cpr.md R222). -/
def recenterQ (v : ℚ) : ℚ := if v ≥ 1 / 2 then v - 1 else v

/-- `round`, half to even (44_cpr.md R221). -/
def roundQ (q : ℚ) : ℤ :=
  if q - ⌊q⌋ < 1 / 2 then ⌊q⌋
  else if q - ⌊q⌋ > 1 / 2 then ⌊q⌋ + 1
  else if ⌊q⌋ % 2 = 0 then ⌊q⌋ else ⌊q⌋ + 1

/-- The thresholds L_2, L_3, ... L_59 as 44_cpr.md R226 prints them, in turns. -/
def thresholdsQ : List ℚ :=
  [29 / 120, 0.2403760277086694815345, 0.2382094894706783183153, 0.2358101719639468600517] ++
    [0.2333103767494601806539, 0.2307555401311060081749, 0.2281654716808502536361, 0.2255500374797764225878] ++
    [0.2229145337022365447027, 0.2202618951515813997538, 0.2175937245256320054174, 0.2149108183702275671391] ++
    [0.2122134552998464796112, 0.2095015626848156337456, 0.2067748171034761897762, 0.2040327067129964153217] ++
    [0.2012745706869153335887, 0.1984996242508052801653, 0.1957069743052113138948, 0.1928956286428897686244] ++
    [0.1900645006134261005174, 0.1872124103912409913351, 0.1843380835661841102134, 0.181440147491169396692] ++
    [0.1785171256268736197561, 0.1755674299828316188824, 0.1725893516447317427644, 0.1695810492846211940672] ++
    [0.1665405354637235218054, 0.1634656604485686488541, 0.1603540931629479774148, 0.157203298783498186236] ++
    [0.1540105123470850112874, 0.1507727075631366385611, 0.1474865597998893320655, 0.1441484019213551725102] ++
    [0.1407541712653845986156, 0.137299345534880658502, 0.1337788646693514805692, 0.1301870347916324374823] ++
    [0.1265174089627848219626, 0.1227626375394253980922, 0.1189142781178768425824, 0.1149625508961189531705] ++
    [0.1108960190092747844165, 0.1067011636781195635015, 0.1023618085442651858441, 0.09785832216101239704495] ++
    [0.09316648434162625929208, 0.08825582521336394412885, 0.08308710238143994853558, 0.07760829750338657015128] ++
    [0.07174790852941265169967, 0.06540290240436500336952, 0.05841498590563706493725, 0.05051739880753939176776] ++
    [0.04118937324635418894086, 0.02908464249991326300705]

/-- L_n for n in 2..59 (44_cpr.md R226). -/
def thresholdQ (n : ℕ) : ℚ := thresholdsQ.getD (n - 2) 0

/-- |phi| folded into [0, 1/4] (44_cpr.md R225). -/
def foldQ (phi : ℚ) : ℚ := if |phi| > 1 / 4 then 1 / 2 - |phi| else |phi|

/-- NL (44_cpr.md R225): 1 from 29/120 on, else the greatest n in 2..59 with f < L_n. -/
def nlQ (phi : ℚ) : ℕ :=
  if foldQ phi ≥ 29 / 120 then 1
  else Nat.findGreatest (fun n => foldQ phi < thresholdQ n) 59

/-- The latitude candidates of 44_cpr.md R223, even and odd. -/
def latitudesQ (yEven yOdd : ℚ) : ℚ × ℚ :=
  let z := roundQ (yEven * 59 - yOdd * 60)
  let z0 : ℤ := if z < 0 then z + 60 else z
  let z1 : ℤ := if z < 0 then z + 59 else z
  (recenterQ ((z0 + yEven) / 60), recenterQ ((z1 + yOdd) / 59))

/-- The longitude of 44_cpr.md R229. -/
def longitudeQ (mr : Bool) (n : ℕ) (xEven xOdd : ℚ) : ℚ :=
  let xSel := if mr then xOdd else xEven
  if n = 1 then recenterQ xSel
  else
    let ni : ℤ := if mr then n - 1 else n
    let z := roundQ (xEven * (n - 1) - xOdd * n)
    let z' : ℤ := if z < 0 then z + ni else z
    recenterQ ((z' + xSel) / ni)

/-- CPR_DECODE in exact rationals (44_cpr.md R230): latitude and longitude in T32 units, or absent. -/
def cprQ (mr : Bool) (x0 y0 x1 y1 : CprField) : Option (ℤ × ℤ) :=
  let q : CprField → ℚ := fun k => (k.toNat : ℚ) / 2 ^ 17
  let phis := latitudesQ (q y0) (q y1)
  let phi := if mr then phis.2 else phis.1
  let phiOther := if mr then phis.1 else phis.2
  if nlQ phi ≠ nlQ phiOther then none
  else
    let lat := roundQ (phi * 2 ^ 32)
    let lon := roundQ (longitudeQ mr (nlQ phi) (q x0) (q x1) * 2 ^ 32)
    if lat < -2 ^ 30 ∨ lat > 2 ^ 30 then none else some (lat, lon)

end Sys2Proof.Claims

open Sys2Proof Sys2Proof.Machine Sys2Proof.Claims

/-! Encoding -/

/-- 30_encoding.md R82-R84: decoding the word of a well-formed command gives the command back, with every operand at
every value. -/
def Obligations.DecodeOfEncodeIsTheCommand : Prop :=
  ∀ i : Instr, WellFormed i → decode (encode i) = .ok i

/-- 30_encoding.md R83, R85: a legal word is the word of the well-formed command it decodes to, so no bit of it is
dropped. -/
def Obligations.EncodeOfDecodeIsTheWord : Prop :=
  ∀ (w : Word) (i : Instr), decode w = .ok i → WellFormed i ∧ encode i = w

/-- 30_encoding.md R82: the check is `(w & mask) = match` with the mask and match of a row of R84, and an illegal word
faults ILLEGAL_CMD with FAULT_INFO = w and no other effect but CMD, which the write has stored (60_exceptions.md
R262). A 4-byte write at 0x08, with no fault recorded, does just this. -/
def Obligations.WordIsLegalExactlyWhenItMatchesARow : Prop :=
  (∀ (w : Word) (i : Instr), decode w = .ok i → w &&& (tableRow i).2 = (tableRow i).1) ∧
  (∀ (w : Word) (i : Instr), w &&& (tableRow i).2 = (tableRow i).1 →
    ∃ j, decode w = .ok j ∧ tableRow j = tableRow i) ∧
  (∀ (w : Word) (s : State), (∀ i, w &&& (tableRow i).2 ≠ (tableRow i).1) →
    runCommand w s = .next (raised .illegalCmd w { s with cmd := w })) ∧
  (∀ (w : Word) (s : State) (i : Instr), decode w = .ok i → runCommand w s = exec i { s with cmd := w }) ∧
  (∀ (w : Word) (s : State), s.fault = false → busWrite .b4 0x08 w s = runCommand w s)

/-- 30_encoding.md R84 and 95_test_vectors.md: words written out from the spec decode to their commands. -/
def Obligations.SpecWordsDecodeAsTheSpecSays : Prop :=
  decode 0x00000000 = .ok .nop ∧ decode 0x001F2101 = .ok (.bvExtract 33 31) ∧
  decode 0x00003802 = .ok (.bvTestbit 56) ∧ decode 0x000B040A = .ok (.bsRange 4 11) ∧
  decode 0x00008010 = .ok (.crcTable 0x80) ∧ decode 0x00000025 = .ok .rfClass ∧
  decode 0x00000130 = .ok (.cprDecode 1) ∧ decode 0x00000230 = .error .mustBeZero ∧
  decode 0x00000003 = .error .unlistedOpcode

/-! The step -/

/-- 10_state.md R20, R25: each host access is one step, of any size and at any offset: the step is the read or the
write the host issues, on the state that only counts one move more and uses up what was placed (log entries 2 and 3).
A write of a legal word to CMD, with no fault recorded, stores the word and runs its command within the same step;
of an illegal word, it stores the word and faults ILLEGAL_CMD (30_encoding.md R82). -/
def Obligations.StepRunsTheDecodedCommand : Prop :=
  (∀ (s : State) (w : Word) (i : Instr),
    nextAgent s = .host → nextAccess s = .write .b4 0x08 w → s.fault = false → decode w = .ok i →
    step s = exec i { accessed s with cmd := w }) ∧
  (∀ (s : State) (w : Word),
    nextAgent s = .host → nextAccess s = .write .b4 0x08 w → s.fault = false →
    (∀ i, w &&& (tableRow i).2 ≠ (tableRow i).1) →
    step s = .next (raised .illegalCmd w { accessed s with cmd := w })) ∧
  (∀ (s : State) (size : AccessSize) (addr : Byte),
    nextAgent s = .host → nextAccess s = .read size addr → step s = busRead size addr (accessed s)) ∧
  (∀ (s : State) (size : AccessSize) (addr : Byte) (v : Word),
    nextAgent s = .host → nextAccess s = .write size addr v → step s = busWrite size addr v (accessed s))

/-- The model's placing of a command (log entry 10) runs it: the step after `withFetchWord` is `exec` of the command,
on the state that only counts one move more and holds the word in CMD. -/
def Obligations.PlacedCommandRunsNext : Prop :=
  ∀ (s : State) (i : Instr), WellFormed i → s.fault = false →
    step (s.withFetchWord 32 (encode i).toNat) = exec i { s with cmd := encode i, moves := s.moves + 1 }

/-- 60_exceptions.md R262-R266: a fault is recorded and the machine goes on, so that every step, from every state,
answers a next state (log entry 1: no step ends in the model's own fault or refusal). -/
def Obligations.EveryStepAnswersANextState : Prop :=
  ∀ s : State, ∃ t : State, step s = .next t

/-! The commands -/

/-- 43_rawframe.md R198: NOP leaves every register except CMD, which then holds 0; any other word with its opcode is
illegal; while FAULT = 1 it is ignored like any CMD write. -/
def Obligations.NopDoesNothing : Prop :=
  (∀ s : State, exec .nop s = .next s) ∧
  (∀ s : State, runCommand 0x00000000 s = .next { s with cmd := 0 }) ∧
  (∀ w : Word, w.extractLsb' 0 8 = 0 → w ≠ 0 → decode w = .error .mustBeZero) ∧
  (∀ s : State, s.fault = true → busWrite .b4 0x08 0x00000000 s = .next s)

/-- 40_bitview.md R111: BV_EXTRACT. -/
def Obligations.BvExtractGivesTheFieldOrFaults : Prop :=
  ∀ (start size : Byte) (s : State),
    encodedAs (.bvExtract start size) (BitVec.ofNat 32 (0x01 + 0x100 * start.toNat + 0x10000 * size.toNat)) ∧
    (0 < size.toNat → size.toNat < 32 → start.toNat + size.toNat ≤ 64 →
      exec (.bvExtract start size) s =
        .next (presented (BitVec.ofNat 64 (s.opa.toNat / 2 ^ start.toNat % 2 ^ size.toNat)) s)) ∧
    (size.toNat = 0 ∨ 32 ≤ size.toNat ∨ 64 < start.toNat + size.toNat →
      exec (.bvExtract start size) s = .next (raised .fieldRange s.cmd s))

/-- 40_bitview.md R112: BV_TESTBIT. -/
def Obligations.BvTestbitGivesTheBitOrFaults : Prop :=
  ∀ (index : Byte) (s : State),
    encodedAs (.bvTestbit index) (BitVec.ofNat 32 (0x02 + 0x100 * index.toNat)) ∧
    (index.toNat < 64 →
      exec (.bvTestbit index) s = .next (presented (if s.opa.getLsbD index.toNat then 1 else 0) s)) ∧
    (64 ≤ index.toNat → exec (.bvTestbit index) s = .next (raised .bitIndex s.cmd s))

/-- 40_bitview.md R113: BS_BYTEAT. -/
def Obligations.BsByteatGivesTheByteOrFaults : Prop :=
  ∀ (index : Byte) (s : State),
    encodedAs (.bsByteat index) (BitVec.ofNat 32 (0x09 + 0x100 * index.toNat)) ∧
    (index.toNat < s.blen.val → ∃ b : Byte, s.bbuf[index.toNat]? = some b ∧
      exec (.bsByteat index) s = .next (presented (BitVec.ofNat 64 b.toNat) s)) ∧
    (s.blen.val ≤ index.toNat → exec (.bsByteat index) s = .next (raised .byteIndex s.cmd s))

/-- 40_bitview.md R114: BS_RANGE; the bounds check comes before the span check. -/
def Obligations.BsRangeGivesTheBigEndianWordOrFaults : Prop :=
  ∀ (lo hi : Byte) (s : State),
    encodedAs (.bsRange lo hi) (BitVec.ofNat 32 (0x0A + 0x100 * lo.toNat + 0x10000 * hi.toNat)) ∧
    (lo.toNat ≤ hi.toNat → hi.toNat ≤ s.blen.val → hi.toNat - lo.toNat ≤ 8 → ∃ v : DWord,
      exec (.bsRange lo hi) s = .next (presented v s) ∧ v.toNat = beNat s.bbuf.toList lo.toNat hi.toNat) ∧
    (hi.toNat < lo.toNat ∨ s.blen.val < hi.toNat →
      exec (.bsRange lo hi) s = .next (raised .byteIndex s.cmd s)) ∧
    (lo.toNat ≤ hi.toNat → hi.toNat ≤ s.blen.val → 8 < hi.toNat - lo.toNat →
      exec (.bsRange lo hi) s = .next (raised .byteSpan s.cmd s))

/-- 40_bitview.md R115: BS_LENGTH. -/
def Obligations.BsLengthGivesTheLength : Prop :=
  encodedAs .bsLength 0x00000008 ∧
  ∀ s : State, ∃ v : DWord, exec .bsLength s = .next (presented v s) ∧ v.toNat = s.blen.val ∧ v.toNat ≤ 16

/-- 40_bitview.md R117, its derived laws: BV_TESTBIT index is BV_EXTRACT index, 1, and BS_RANGE j, j+1 is
BS_BYTEAT j. -/
def Obligations.BitViewCommandsAgreeWithEachOther : Prop :=
  (∀ (index : Byte) (s : State), index.toNat < 64 → exec (.bvTestbit index) s = exec (.bvExtract index 1) s) ∧
  (∀ (j : Byte) (s : State), j.toNat < s.blen.val → exec (.bsRange j (j + 1)) s = exec (.bsByteat j) s)

/-- 41_crc24.md R134 with R132: CRC_TABLE gives the remainder of its single byte, below 2^24, and never faults. -/
def Obligations.CrcTableGivesTheRemainderOfTheByte : Prop :=
  (∀ (entry : Byte), encodedAs (.crcTable entry) (BitVec.ofNat 32 (0x10 + 0x100 * entry.toNat))) ∧
  ∀ (entry : Byte) (s : State), ∃ v : DWord, exec (.crcTable entry) s = .next (presented v s) ∧
    v.toNat = (crcBitwise [entry]).toNat ∧ v.toNat < 2 ^ 24

/-- 41_crc24.md R135: CRC_COMPUTE gives the CRC of BBUF[0..BLEN), here by the bitwise reference of R130; BLEN = 0
gives 0. -/
def Obligations.CrcComputeGivesTheCrcOfTheSequence : Prop :=
  encodedAs .crcCompute 0x00000011 ∧
  ∀ s : State, ∃ v : DWord, exec .crcCompute s = .next (presented v s) ∧
    v.toNat = (crcBitwise (s.bbuf.toList.take s.blen.val)).toNat ∧ (s.blen.val = 0 → v = 0)

/-- 43_rawframe.md R190: RF_OF, its two checks in order and the CRC gate. -/
def Obligations.RfOfBuildsTheFrameThroughTheGate : Prop :=
  encodedAs .rfOf 0x00000020 ∧
  ∀ (s : State) (bytes : Vector Byte 14), bytes.toList = s.bbuf.toList.take 14 →
    (s.blen.val ≠ 14 → exec .rfOf s = .next (raised .frameLength s.cmd s)) ∧
    (s.blen.val = 14 → s.ts.toInt < 0 → exec .rfOf s = .next (raised .negTimestamp s.cmd s)) ∧
    (s.blen.val = 14 → 0 ≤ s.ts.toInt → crc bytes.toList ≠ 0 →
      exec .rfOf s = .next (absented { s with frValid := false })) ∧
    (s.blen.val = 14 → 0 ≤ s.ts.toInt → crc bytes.toList = 0 →
      exec .rfOf s = .next (presented 0 { s with fr := { ts := s.ts, bytes := bytes }, frValid := true }))

/-- 43_rawframe.md R191-R194: the frame's downlink format, ICAO address, payload and type code, and NO_FRAME when
there is no frame. -/
def Obligations.FrameAccessorsGiveTheFieldsOrFault : Prop :=
  encodedAs .rfDf 0x00000021 ∧ encodedAs .rfIcao 0x00000022 ∧ encodedAs .rfMe 0x00000023 ∧
  encodedAs .rfTc 0x00000024 ∧
  (∀ s : State, s.frValid = true →
    exec .rfDf s = .next (presented (BitVec.ofNat 64 (s.fr.bytes[0].toNat / 8)) s) ∧
    exec .rfIcao s = .next (presented (BitVec.ofNat 64 (beNat s.fr.bytes.toList 1 4)) s) ∧
    exec .rfMe s = .next (presented (BitVec.ofNat 64 (beNat s.fr.bytes.toList 4 11)) s) ∧
    exec .rfTc s = .next (presented (BitVec.ofNat 64 (s.fr.bytes[4].toNat / 8)) s)) ∧
  (∀ s : State, s.frValid = false → ∀ i ∈ [Instr.rfDf, .rfIcao, .rfMe, .rfTc],
    exec i s = .next (raised .noFrame s.cmd s))

/-- 43_rawframe.md R195: RF_CLASS, present for classes 1 to 3, absent otherwise, NO_FRAME without a frame. -/
def Obligations.RfClassGivesTheDispatchClass : Prop :=
  encodedAs .rfClass 0x00000025 ∧
  ∀ s : State,
    (s.frValid = false → exec .rfClass s = .next (raised .noFrame s.cmd s)) ∧
    (s.frValid = true → classOf (s.fr.bytes[4].toNat / 8) = 0 → exec .rfClass s = .next (absented s)) ∧
    (s.frValid = true → classOf (s.fr.bytes[4].toNat / 8) ≠ 0 →
      exec .rfClass s = .next (presented (BitVec.ofNat 64 (classOf (s.fr.bytes[4].toNat / 8))) s))

/-- 43_rawframe.md R196: RF_CPRLOAD writes only the half its parity names, and only for a position message. -/
def Obligations.RfCprloadLoadsTheHalfOfItsParity : Prop :=
  encodedAs .rfCprload 0x00000026 ∧
  ∀ s : State,
    let me := beNat s.fr.bytes.toList 4 11
    let lon : CprField := BitVec.ofNat 17 (me % 2 ^ 17)
    let lat : CprField := BitVec.ofNat 17 (me / 2 ^ 17 % 2 ^ 17)
    (s.frValid = false → exec .rfCprload s = .next (raised .noFrame s.cmd s)) ∧
    (s.frValid = true → classOf (me / 2 ^ 51) ≠ 2 → exec .rfCprload s = .next (absented s)) ∧
    (s.frValid = true → classOf (me / 2 ^ 51) = 2 → me / 2 ^ 34 % 2 = 0 →
      exec .rfCprload s = .next (presented 0 { s with cprX0 := lon, cprY0 := lat })) ∧
    (s.frValid = true → classOf (me / 2 ^ 51) = 2 → me / 2 ^ 34 % 2 = 1 →
      exec .rfCprload s = .next (presented 1 { s with cprX1 := lon, cprY1 := lat }))

/-- 43_rawframe.md R199: FIFO_POP. -/
def Obligations.FifoPopTakesTheOldestFrame : Prop :=
  encodedAs .fifoPop 0x00000040 ∧
  (∀ s : State, s.fifo = [] → exec .fifoPop s = .next (raised .fifoEmpty s.cmd s)) ∧
  (∀ (s : State) (e : Frame) (rest : List Frame), s.fifo = e :: rest →
    exec .fifoPop s =
      .next (presented (BitVec.ofNat 64 rest.length) { s with fifo := rest, fr := e, frValid := true }))

/-- 44_cpr.md R230 with R220-R229 and R231: CPR_DECODE is the spec's computation in exact rationals, for every input
and both parities. Three points are the model's: a tie of a zone index goes to the even integer (log entry 7, DESIGN
CHOICE among R221's two), NL compares with R226's decimals (log entry 8, DEDUCED from R226's exactness sentence), and
an ill-formed `a`, which no word has, is read by its bit 0 (log entry 13, DESIGN CHOICE). -/
def Obligations.CprDecodeIsTheExactRationalComputation : Prop :=
  encodedAs (.cprDecode 0) 0x00000030 ∧ encodedAs (.cprDecode 1) 0x00000130 ∧
  ∀ (a : Byte) (s : State),
    (cprQ (a.getLsbD 0) s.cprX0 s.cprY0 s.cprX1 s.cprY1 = none →
      exec (.cprDecode a) s = .next (absented s)) ∧
    (∀ lat lon : ℤ, cprQ (a.getLsbD 0) s.cprX0 s.cprY0 s.cprX1 s.cprY1 = some (lat, lon) →
      exec (.cprDecode a) s =
        .next (presented (BitVec.ofInt 32 lat ++ BitVec.ofInt 32 lon) s))

/-- The frame of every command, from the pseudocode of each: what a command leaves unchanged. No command touches the
operand registers, CMD, the enable, the end-of-stream flags, POS, the assembler, the FIR, the power stream or the
environment; only FIFO_POP touches the FIFO, only it and RF_OF the frame register, only RF_CPRLOAD the CPR fields. -/
def Obligations.CommandsLeaveEverythingElseUnchanged : Prop :=
  ∀ (i : Instr) (s t : State), exec i s = .next t →
    t = { s with
      fault := t.fault
      faultCause := t.faultCause
      faultInfo := t.faultInfo
      present := t.present
      res := t.res
      frValid := t.frValid
      fr := t.fr
      fifo := t.fifo
      cprX0 := t.cprX0
      cprY0 := t.cprY0
      cprX1 := t.cprX1
      cprY1 := t.cprY1 } ∧
    (i ≠ .fifoPop → t.fifo = s.fifo) ∧
    (i ≠ .fifoPop → i ≠ .rfOf → t.fr = s.fr ∧ t.frValid = s.frValid) ∧
    (i ≠ .rfCprload → t.cprX0 = s.cprX0 ∧ t.cprY0 = s.cprY0 ∧ t.cprX1 = s.cprX1 ∧ t.cprY1 = s.cprY1)

/-- 60_exceptions.md R273: the BitView, CRC, frame and CPR commands share no state with the stream. Whatever the
stream units hold, a command other than FIFO_POP has the same effect on everything else and leaves them alone. -/
def Obligations.CommandsDoNotDependOnTheStream : Prop :=
  ∀ (i : Instr) (s u : State), i ≠ .fifoPop →
    exec i (withStream s u) = mapNext (fun t => withStream t u) (exec i s)

/-- 70_reset_and_hazards.md R301: RES and STATUS.PRESENT change only by a command (and by a reset), and a fault leaves
both. Every command but NOP that does not fault overwrites both: its result does not depend on what they held. An absent
result is RES = 0. -/
def Obligations.OnlyCommandsWriteTheResult : Prop :=
  (∀ s t : State, step s = .next t → softResetNext s = false → ¬ commandNext s →
    t.res = s.res ∧ t.present = s.present) ∧
  (∀ s t : State, step s = .next t → s.fault = false → t.fault = true → t.res = s.res ∧ t.present = s.present) ∧
  (∀ (i : Instr) (s t : State), exec i s = .next t → i ≠ .nop → s.fault = false → t.fault = false →
    (t.present = false → t.res = 0) ∧
    ∀ (b : Bool) (v : DWord), exec i { s with present := b, res := v } = .next t)

/-! Faults -/

/-- 60_exceptions.md R262: fault entry is precise. A step that records a fault changes the three fault fields and
nothing else of the block, but for CMD, which a legal CMD write stores before decoding; then CMD = FAULT_INFO. A read
that faults returns 0 (20_memory.md R62), and any other step that faults returns nothing (`readData`, log entry 9). -/
def Obligations.FaultEntryIsPrecise : Prop :=
  (∀ (c : FaultCause) (info : Word) (s : State), raiseFault c info s = raised c info s) ∧
  ∀ s t : State, step s = .next t → s.fault = false → t.fault = true →
    t = { s with
      fault := true
      faultCause := t.faultCause
      faultInfo := t.faultInfo
      cmd := t.cmd
      moves := s.moves + 1
      turns := s.turns.tail
      accesses := t.accesses
      readData := t.readData } ∧
    t.faultCause ≠ .none ∧ (t.cmd = s.cmd ∨ t.cmd = t.faultInfo) ∧
    (readNext s → t.readData = some 0) ∧ (¬ readNext s → t.readData = s.readData)

/-- 60_exceptions.md R263-R265: while FAULT = 1, a step that is no soft reset keeps the recorded fault and every other
part of the block but CTRL.DEMOD_EN, which only a 4-byte write of CTRL stores. The outcome is `Fault(cause, info)`,
distinct from every normal state, and only a soft reset leaves it. That the turn of an agent without a step is a step
that changes nothing, and that the block stays a state to go on from, are the model's choices (log entries 4 and 1). -/
def Obligations.FaultedBlockKeepsItsStateUntilReset : Prop :=
  (∀ s : State, s.fault = true → s.outcome = .faulted s.faultCause s.faultInfo) ∧
  (∀ s : State, s.fault = false → s.outcome = .normal) ∧
  (∀ s t : State, step s = .next t → s.fault = true → softResetNext s = true → t.outcome = .normal) ∧
  (∀ s t : State, step s = .next t → s.fault = true → softResetNext s = false →
    t.outcome = s.outcome ∧
    t = { s with
      demodEn := t.demodEn
      moves := s.moves + 1
      turns := s.turns.tail
      accesses := t.accesses
      readData := t.readData } ∧
    (t.demodEn = s.demodEn ∨
      (nextAgent s = .host ∧ ∃ v : Word, nextAccess s = .write .b4 0x00 v ∧ t.demodEn = v.getLsbD 0)))

/-- 60_exceptions.md R261 point 5: a Demodulator step's only fault is TS_OVERFLOW, with FAULT_INFO 0, and a Source
step never faults. -/
def Obligations.StreamAgentsRaiseOnlyTimestampOverflow : Prop :=
  ∀ s t : State, step s = .next t → s.fault = false → nextAgent s ≠ .host → t.fault = true →
    nextAgent s = .demodulator ∧ t.faultCause = .tsOverflow ∧ t.faultInfo = 0 ∧ s.pos.toNat * 100 > 2 ^ 63 - 1

/-! The register interface -/

/-- 10_state.md R45: every piece of state after reset. -/
def Obligations.ResetGivesEveryPieceOfStateItsValue : Prop :=
  (∀ r : Reg, readReg r State.reset = 0) ∧ State.reset.fr.ts = 0 ∧ (∀ b ∈ State.reset.fr.bytes.toList, b = 0) ∧
  State.reset.frValid = false ∧ (∀ b ∈ State.reset.bbuf.toList, b = 0) ∧ State.reset.blen.val = 0 ∧
  State.reset.fifo = [] ∧ State.reset.lowByte = none ∧ State.reset.nSamples = 0 ∧
  (∀ x ∈ State.reset.hist.toList, x = 0) ∧ State.reset.half = none ∧ State.reset.power = [] ∧
  State.reset.pos = 0 ∧ State.reset.eos = false ∧ State.reset.done = false ∧ State.reset.fault = false ∧
  State.reset.faultCause = .none ∧ State.reset.faultInfo = 0 ∧ State.reset.present = false ∧
  State.reset.demodEn = false ∧
  (∀ s : State, softReset s = { State.reset with
    moves := s.moves
    turns := s.turns
    accesses := s.accesses
    stream := s.stream
    readData := s.readData })

/-- 70_reset_and_hazards.md R292: a legal write of CTRL with SRST = 1, faulted or not, puts the block into its reset
state, DEMOD_EN of that write discarded, and leaves what the Source has not delivered. -/
def Obligations.SoftResetIsThePowerOnState : Prop :=
  ∀ (s : State) (v : Word), v.getLsbD 1 = true →
    busWrite .b4 0x00 v s =
      .next { State.reset with
        moves := s.moves
        turns := s.turns
        accesses := s.accesses
        stream := s.stream
        readData := s.readData }

/-- 10_state.md R23: a write of CTRL without SRST stores DEMOD_EN and nothing else, faulted or not
(60_exceptions.md R266), and CTRL reads DEMOD_EN in bit 0 and 0 elsewhere. -/
def Obligations.CtrlStoresTheEnable : Prop :=
  ∀ (s : State) (v : Word), v.getLsbD 1 = false → ∃ t : State,
    busWrite .b4 0x00 v s = .next t ∧ t = { s with demodEn := v.getLsbD 0 } ∧ readReg .ctrl t = v &&& 1

/-- 10_state.md R22, R25-R33, R41: a 4-byte read at each register's offset returns that register's value, reserved
bits 0. -/
def Obligations.EveryOffsetReadsItsRegister : Prop :=
  ∀ (s : State) (addr : Byte) (v : Word), (addr, v) ∈ registerValues s →
    busRead .b4 addr s = .next { s with readData := some v }

/-- 10_state.md R24, 60_exceptions.md R260: the fields of STATUS and the cause codes. FIFO_COUNT holds the number of
queued frames while that fits 16 bits, as FIFO_DEPTH <= 65535 ensures. -/
def Obligations.StatusShowsItsFields : Prop :=
  Config.fifoDepth ≤ 65535 ∧ (∀ c : FaultCause, (c, c.code) ∈ causeCodes) ∧
  ∀ s : State,
    busRead .b4 0x04 s = .next { s with readData := some (readReg .status s) } ∧
    (readReg .status s).getLsbD 0 = s.fault ∧ (readReg .status s).getLsbD 1 = s.present ∧
    (readReg .status s).getLsbD 2 = s.frValid ∧ (readReg .status s).getLsbD 3 = s.done ∧
    (readReg .status s).getLsbD 4 = s.eos ∧ (readReg .status s).extractLsb' 5 3 = 0 ∧
    (readReg .status s).extractLsb' 8 8 = s.faultCause.code ∧
    (s.fifo.length ≤ 65535 → ((readReg .status s).extractLsb' 16 16).toNat = s.fifo.length)

/-- 20_memory.md R61, R65: a legal read returns a value and changes nothing of the block, and the same read again
returns the same value. -/
def Obligations.LegalReadsHaveNoSideEffect : Prop :=
  ∀ (addr : Byte) (s : State), mapped addr → ∃ v : Word,
    busRead .b4 addr s = .next { s with readData := some v } ∧
    busRead .b4 addr { s with readData := some v } = .next { s with readData := some v }

/-- 20_memory.md R61-R64 and 10_state.md R26: an access of another size, or at an offset that is unmapped or no multiple
of 4, and a write of a read-only register, fault BAD_REG with the FAULT_INFO of R26 and no other effect; a faulting
read returns 0, and the outcome is then the faulted one. -/
def Obligations.IllegalAccessesFaultBadReg : Prop :=
  (∀ (size : AccessSize) (addr : Byte) (s : State), s.fault = false → ¬ (size = .b4 ∧ mapped addr) →
    busRead size addr s = .next { raised .badReg (badInfo 0 size addr) s with readData := some 0 } ∧
    ∀ v : Word, busWrite size addr v s = .next (raised .badReg (badInfo 1 size addr) s)) ∧
  (∀ (addr : Byte) (v : Word) (s : State), s.fault = false → addr ∈ readOnlyOffsets →
    busWrite .b4 addr v s = .next (raised .badReg (badInfo 1 .b4 addr) s)) ∧
  (∀ (info : Word) (s : State), (raised .badReg info s).outcome = .faulted .badReg info)

/-- 60_exceptions.md R266: what each kind of access does while FAULT = 1. -/
def Obligations.FaultedAccessesActAsTheRuleSays : Prop :=
  ∀ (size : AccessSize) (addr : Byte) (v : Word) (s : State), s.fault = true →
    (size = .b4 → mapped addr → ∃ r : Reg, regAt addr = some r ∧
      busRead size addr s = .next { s with readData := some (readReg r s) }) ∧
    (¬ (size = .b4 ∧ mapped addr) → busRead size addr s = .next { s with readData := some 0 }) ∧
    (addr ≠ 0x00 ∨ size ≠ .b4 → busWrite size addr v s = .next s) ∧
    (addr = 0x00 → size = .b4 → v.getLsbD 1 = true → ∃ t : State,
      busWrite size addr v s = .next t ∧ t.fresh ∧ t.fault = false) ∧
    (addr = 0x00 → size = .b4 → v.getLsbD 1 = false →
      busWrite size addr v s = .next { s with demodEn := v.getLsbD 0 })

/-- 20_memory.md R66 and 10_state.md R27, R29, R31, R32, R34: a write of a plain register makes it read as the value
written, reserved bits dropped; every other register reads as before, and nothing else of the state changes. -/
def Obligations.PlainRegistersReadBackWhatWasWritten : Prop :=
  ∀ (addr : Byte) (r : Reg) (keep v : Word) (s : State),
    s.fault = false → regAt addr = some r → (r, keep) ∈ plainRegs → ∃ t : State,
      busWrite .b4 addr v s = .next t ∧ readReg r t = v &&& keep ∧
      (∀ r' : Reg, r' ≠ r → readReg r' t = readReg r' s) ∧
      t = { s with
        opa := t.opa
        ts := t.ts
        bbuf := t.bbuf
        cprX0 := t.cprX0
        cprY0 := t.cprY0
        cprX1 := t.cprX1
        cprY1 := t.cprY1 }

/-- 10_state.md R30, 60_exceptions.md R260: BLEN takes 0..16; a greater value faults BLEN_RANGE with FAULT_INFO
0xC0000428 and leaves BLEN. -/
def Obligations.BlenTakesZeroToSixteen : Prop :=
  ∀ (v : Word) (s : State), s.fault = false →
    (v.toNat ≤ 16 → ∃ t : State, busWrite .b4 0x28 v s = .next t ∧ t.blen.val = v.toNat ∧
      t = { s with blen := t.blen } ∧ readReg .blen t = v) ∧
    (16 < v.toNat → busWrite .b4 0x28 v s = .next (raised .blenRange 0xC0000428 s))

/-! The stream -/

/-- 10_state.md R44 and 42_demod.md R150, R156: what the Source's turn delivers, and when. That the turn of a
Source with no step is a step that uses up the turn and changes nothing, its item unconsumed, is the model's choice
(log entry 4); so are the places the turn and the item come from (log entries 2 and 3). -/
def Obligations.SourceStepsAsItIsEnabled : Prop :=
  ∀ s : State, nextAgent s = .source →
    (s.fault = true ∨ s.eos = true → step s = .next (idle s)) ∧
    (s.fault = false → s.eos = false → nextItem s = .endOfStream →
      step s = .next { idle s with eos := true, lowByte := none, half := none, stream := s.stream.tail }) ∧
    (∀ b : Byte, s.fault = false → s.eos = false → nextItem s = .byte b → room s →
      step s = .next (sourceByte b { idle s with stream := s.stream.tail })) ∧
    (∀ b : Byte, nextItem s = .byte b → ¬ room s → step s = .next (idle s))

/-- 42_demod.md R150, R152: what a delivered byte does, in each of the three cases. -/
def Obligations.DeliveredBytesFormSamplesAndPowers : Prop :=
  ∀ (b : Byte) (s : State),
    (s.lowByte = none → sourceByte b s = { s with lowByte := some b }) ∧
    (∀ lo : Byte, s.lowByte = some lo → s.half = none →
      sourceByte b s = { s with
        lowByte := none
        nSamples := s.nSamples + 1
        half := some ((lo.toNat : Int) + 256 * b.toNat - 2048) }) ∧
    (∀ (lo : Byte) (h : Int), s.lowByte = some lo → s.half = some h → ∃ P : Nat,
      sourceByte b s = { s with
        lowByte := none
        nSamples := s.nSamples + 1
        half := none
        hist := #v[s.hist[2], s.hist[3], s.hist[4], s.hist[5], s.hist[6], s.hist[7], h,
          (lo.toNat : Int) + 256 * b.toNat - 2048]
        power := s.power ++ [P] } ∧
      (P : Int) = (s.hist[2] - s.hist[4] + s.hist[6] - h) ^ 2 +
        (s.hist[3] - s.hist[5] + s.hist[7] - ((lo.toNat : Int) + 256 * b.toNat - 2048)) ^ 2)

/-- 42_demod.md R153, R156: after the bytes of a stream from reset, the number of samples, the remainders, and every
power sample by its closed form; end of stream discards the remainders, so that none ever forms a sample or a power
sample, and no remainder is an error. -/
def Obligations.PowerStreamIsTheClosedForm : Prop :=
  (∀ bs : List Byte,
    let t := bs.foldl (fun s b => sourceByte b s) State.reset
    t.nSamples = bs.length / 2 ∧ t.power = powers bs ∧ t.power.length = bs.length / 4 ∧
    (t.lowByte.isSome = true ↔ bs.length % 2 = 1) ∧ (t.half.isSome = true ↔ bs.length / 2 % 2 = 1)) ∧
  (∀ s t : State, step s = .next t → s.eos = false → t.eos = true →
    t.lowByte = none ∧ t.half = none ∧ t.nSamples = s.nSamples ∧ t.power = s.power) ∧
  (∀ s t : State, step s = .next t → s.eos = true → softResetNext s = false →
    t.eos = true ∧ t.nSamples = s.nSamples ∧ t.power = s.power) ∧
  (∀ s t : State, step s = .next t → nextAgent s = .source → t.fault = s.fault)

/-- 42_demod.md R165, 30_encoding.md R90: the frame of a window is the one whose bits R165 compares, and the window is
accepted exactly when R165's test holds, DF being bits 7:3 of byte 0. -/
def Obligations.WindowIsAcceptedByTheCandidateTest : Prop :=
  ∀ (P : List Nat) (p : Nat),
    isFrameOf P p (frameBytes P p) ∧ (accept P p = true ↔ accepted P p (frameBytes P p))

/-- 42_demod.md R166-R170, R172: the Demodulator's turn, in each of its cases. That the turn of a Demodulator with no
step is a step that uses up the turn and changes nothing is the model's choice (log entry 4). -/
def Obligations.DemodulatorStepsAsTheRuleSays : Prop :=
  ∀ s : State, nextAgent s = .demodulator →
    let p := s.pos.toNat
    (¬ demodHasStep s → step s = .next (idle s)) ∧
    (demodHasStep s → ¬ full s → step s = .next { idle s with done := true }) ∧
    (demodHasStep s → full s → p * 100 > 2 ^ 63 - 1 → step s = .next (raised .tsOverflow 0 (idle s))) ∧
    (demodHasStep s → full s → p * 100 ≤ 2 ^ 63 - 1 → accept s.power p = true →
      step s = .next { idle s with
        fifo := s.fifo ++ [{ ts := BitVec.ofNat 64 (p * 100), bytes := frameBytes s.power p }]
        pos := BitVec.ofNat 64 (p + 1200) }) ∧
    (demodHasStep s → full s → p * 100 ≤ 2 ^ 63 - 1 → accept s.power p = false →
      step s = .next { idle s with pos := BitVec.ofNat 64 (p + 1) })

/-- 10_state.md R36, 42_demod.md R171, 43_rawframe.md R199: the FIFO is a queue. Only the Demodulator appends, at the
tail and only below FIFO_DEPTH, only FIFO_POP removes, from the head and into FR, and only a reset empties it. So a step
never takes it past FIFO_DEPTH. -/
def Obligations.FifoIsAQueueBetweenDemodulatorAndHost : Prop :=
  ∀ s t : State, step s = .next t →
    (softResetNext s = true → t.fifo = []) ∧
    (softResetNext s = false → popNext s → t.fifo = s.fifo.tail ∧ ∀ e ∈ s.fifo.head?, t.fr = e) ∧
    (softResetNext s = false → ¬ popNext s → t.fifo = s.fifo ++ appendedNext s) ∧
    (appendedNext s ≠ [] → nextAgent s = .demodulator ∧ s.fifo.length < Config.fifoDepth) ∧
    (s.fifo.length ≤ Config.fifoDepth → t.fifo.length ≤ Config.fifoDepth)

/-- 10_state.md R41, 42_demod.md R161, 60_exceptions.md R271: POS changes only by a Demodulator step, by 1 or by W, and
by a reset. -/
def Obligations.PositionMovesOnlyByTheDemodulator : Prop :=
  ∀ s t : State, step s = .next t → softResetNext s = false → t.pos ≠ s.pos →
    nextAgent s = .demodulator ∧
      (t.pos.toNat = s.pos.toNat + 1 ∨ t.pos.toNat = s.pos.toNat + 1200)

/-- 60_exceptions.md R273: a step of the Source or the Demodulator changes no register but STATUS's stream and fault
fields, FAULT_INFO and POS; a step of the host that is no soft reset changes no stream state but the FIFO and the
enable. -/
def Obligations.HostAndStreamShareOnlyTheFifoAndFlags : Prop :=
  (∀ s t : State, step s = .next t → nextAgent s ≠ .host →
    t = { withStream s t with
      demodEn := s.demodEn
      fault := t.fault
      faultCause := t.faultCause
      faultInfo := t.faultInfo
      moves := s.moves + 1
      turns := s.turns.tail
      stream := t.stream }) ∧
  (∀ s t : State, step s = .next t → nextAgent s = .host → softResetNext s = false →
    withStream s t = { s with demodEn := t.demodEn, fifo := t.fifo } ∧ t.stream = s.stream)

/-- 10_state.md R42, 42_demod.md R172: DONE, once set, stays set until a reset, and the Demodulator then has no step,
its turn being a step that changes nothing by the model's choice (log entry 4). -/
def Obligations.DoneStaysUntilReset : Prop :=
  (∀ s t : State, step s = .next t → s.done = true → softResetNext s = false → t.done = true) ∧
  (∀ s : State, s.done = true → nextAgent s = .demodulator → step s = .next (idle s))

/-- The invariant of the machine holds after reset, whatever FIFO_DEPTH and PBUF_CAP are. -/
def Obligations.InvariantHoldsAtReset : Prop := State.reset.Inv

/-- Every step keeps the invariant: the FIFO's bound, frames and times, the frame register's frame, the fault record,
the count and the ranges of samples and powers, what waits until end of stream (42_demod.md R156), the place of POS, the
buffer's bound, and what DONE means. -/
def Obligations.EveryStepKeepsTheInvariant : Prop :=
  ∀ s t : State, s.Inv → step s = .next t → t.Inv

/-- 42_demod.md R174 with R156, as an invariant of single steps: whatever agent moves, whatever FIFO_DEPTH and PBUF_CAP
are, a step keeps `Follows`, with the byte it takes and the frame it appends; it holds of the empty stream after a
reset. -/
def Obligations.EveryStepFollowsTheScanOfItsStream : Prop :=
  (∀ s : State, s.fresh → Follows [] [] s) ∧
  (∀ (bytes : List Byte) (fs : List Frame) (s t : State), Follows bytes fs s → step s = .next t →
    (softResetNext s = false → Follows (bytes ++ deliveredNext s) (fs ++ appendedNext s) t) ∧
    (softResetNext s = true → Follows [] [] t))

/-- 42_demod.md R174: whatever the interleaving, the depth of the FIFO and the size of the buffer, the frames a run has
appended are a prefix of `frames` of the bytes it has taken, and all of them when DONE is set. -/
def Obligations.EveryRunAppendsTheFramesOfItsBytes : Prop :=
  ∀ (bytes : List Byte) (fs : List Frame) (s : State),
    StreamRun bytes fs s → fs <+: frames bytes ∧ (s.done = true → fs = frames bytes)

/-- 42_demod.md R175: in every run, the timestamps of successive frames differ by at least 120000 ns, every appended
frame has CRC 0 and DF 17, and a frame at position p needs 4 * (p + W) bytes, so fewer than 4800 bytes give none. -/
def Obligations.AppendedFramesAreSpacedAndValid : Prop :=
  ∀ (bytes : List Byte) (fs : List Frame) (s : State), StreamRun bytes fs s →
    fs.Pairwise (fun a b => a.ts.toNat + 120000 ≤ b.ts.toNat) ∧
    (∀ f ∈ fs, crc f.bytes.toList = 0 ∧ f.bytes[0].toNat / 8 = 17 ∧
      ∃ p, f.ts.toNat = p * 100 ∧ 4 * (p + 1200) ≤ bytes.length) ∧
    (bytes.length < 4800 → fs = [])

/-! CRC24 -/

/-- 41_crc24.md R132: the table printed there is `T[v] = crc_bitwise([v])` for every byte v. -/
def Obligations.CrcTableIsTheBitwiseRemainder : Prop :=
  ∀ v : Byte, crcTable v = crcBitwise [v]

/-- 41_crc24.md R133: for every byte sequence the table-driven CRC equals the bitwise reference. -/
def Obligations.TableDrivenCrcEqualsTheBitwiseReference : Prop :=
  ∀ ms : List Byte, crc ms = crcBitwise ms

/-- 41_crc24.md R131: the CRC is linear over sequences of equal length. -/
def Obligations.CrcIsLinear : Prop :=
  ∀ ms ns : List Byte, ms.length = ns.length → crc (xorBytes ms ns) = crc ms ^^^ crc ns

/-- 41_crc24.md R136: 14 bytes are an accepted frame exactly when the last three are the CRC of the first eleven, and
flipping any single bit of an accepted frame gives a CRC that is not 0. -/
def Obligations.AcceptedFramesCarryTheirCrcAndDetectBitErrors : Prop :=
  (∀ F : Vector Byte 14, crc F.toList = 0 ↔ F[11] ++ F[12] ++ F[13] = crc (F.toList.take 11)) ∧
  (∀ (F : Vector Byte 14) (k : Fin 14) (j : Fin 8), crc F.toList = 0 →
    crc ((F.set k.val (F[k.val] ^^^ (1#8 <<< j.val))).toList) ≠ 0)

/-! CPR -/

/-- 44_cpr.md R223: the zone index is in -60..59 and both latitude candidates lie in [-1/2, 1/2) turns, for either tie
rule. -/
def Obligations.LatitudeCandidatesAreInRange : Prop :=
  ∀ (ties : RoundTies) (y0 y1 : CprField),
    -60 ≤ zPhi ties (cprFrac y0) (cprFrac y1) ∧ zPhi ties (cprFrac y0) (cprFrac y1) ≤ 59 ∧
    ∀ phi ∈ [phiEven ties (cprFrac y0) (cprFrac y1), phiOdd ties (cprFrac y0) (cprFrac y1)],
      0 < phi.den ∧ -(phi.den : Int) ≤ 2 * phi.num ∧ 2 * phi.num < phi.den

/-- 44_cpr.md R226, its table: NL is n exactly on the interval of f the table gives n, with NL = 59 below L_59 and
NL = 1 from 29/120 on. Here L_n is the decimal R226 prints. Where R225's irrational L_n and its decimal differ, the
statement is of the model only (log entry 8, DEDUCED, unsafe there); for the latitudes CPR_DECODE can form, R226's
exactness sentence says that both give the same NL. -/
def Obligations.NlIsTheIntervalOfTheTable : Prop :=
  ∀ phi : Frac, 0 < phi.den → -(phi.den : Int) ≤ 2 * phi.num → 2 * phi.num < phi.den →
    let f := foldQ ((phi.num : ℚ) / phi.den)
    (nl phi = 59 ↔ f < thresholdQ 59) ∧ (nl phi = 1 ↔ 29 / 120 ≤ f) ∧
    (∀ n : ℕ, 2 ≤ n → n ≤ 58 → (nl phi = n ↔ thresholdQ (n + 1) ≤ f ∧ f < thresholdQ n)) ∧
    1 ≤ nl phi ∧ nl phi ≤ 59

/-- 44_cpr.md R231, R232: a present latitude is within 2^30 and a present longitude fits 32-bit two's complement, for
either tie rule, so that packing them loses nothing. -/
def Obligations.DecodedPositionsFitTheirFields : Prop :=
  ∀ (ties : RoundTies) (mr : Bool) (x0 y0 x1 y1 : CprField) (lat lon : Int),
    cprSolve ties mr x0 y0 x1 y1 = some (lat, lon) →
    -2 ^ 30 ≤ lat ∧ lat ≤ 2 ^ 30 ∧ -2 ^ 31 ≤ lon ∧ lon ≤ 2 ^ 31 - 1 ∧
    (packPosition lat lon).toNat = (lat % 2 ^ 32).toNat * 2 ^ 32 + (lon % 2 ^ 32).toNat

/-- 44_cpr.md R232: the T32 conversions never meet a tie (twice the remainder of q * 2^32 is never the denominator), so
the tie rule does not affect them. -/
def Obligations.T32ConversionsNeverMeetATie : Prop :=
  ∀ (ties : RoundTies) (mr : Bool) (x0 y0 x1 y1 : CprField) (n : Nat), 1 ≤ n → n ≤ 59 →
    ∀ q ∈ [phiEven ties (cprFrac y0) (cprFrac y1), phiOdd ties (cprFrac y0) (cprFrac y1),
        cprLongitude ties mr n (cprFrac x0) (cprFrac x1)],
      2 * (q.num * 2 ^ 32 % q.den) ≠ q.den ∧
        fracRound .even (fracMulInt q (2 ^ 32)) = fracRound .up (fracMulInt q (2 ^ 32))
end

