-- ==== Sys2Proof/Laws/State.lean ====
section
/-!
SUPPORT. One lemma per field per named update of the state, so that no proof unfolds a record update.
-/

namespace Sys2Proof.Machine

variable (s : State)

/-! raiseFault -/

@[simp] theorem raiseFault_demodEn (c : FaultCause) (w : Word) : (raiseFault c w s).demodEn = s.demodEn := rfl
@[simp] theorem raiseFault_fault (c : FaultCause) (w : Word) : (raiseFault c w s).fault = true := rfl
@[simp] theorem raiseFault_present (c : FaultCause) (w : Word) : (raiseFault c w s).present = s.present := rfl
@[simp] theorem raiseFault_frValid (c : FaultCause) (w : Word) : (raiseFault c w s).frValid = s.frValid := rfl
@[simp] theorem raiseFault_done (c : FaultCause) (w : Word) : (raiseFault c w s).done = s.done := rfl
@[simp] theorem raiseFault_eos (c : FaultCause) (w : Word) : (raiseFault c w s).eos = s.eos := rfl
@[simp] theorem raiseFault_faultCause (c : FaultCause) (w : Word) : (raiseFault c w s).faultCause = c := rfl
@[simp] theorem raiseFault_faultInfo (c : FaultCause) (w : Word) : (raiseFault c w s).faultInfo = w := rfl
@[simp] theorem raiseFault_cmd (c : FaultCause) (w : Word) : (raiseFault c w s).cmd = s.cmd := rfl
@[simp] theorem raiseFault_opa (c : FaultCause) (w : Word) : (raiseFault c w s).opa = s.opa := rfl
@[simp] theorem raiseFault_res (c : FaultCause) (w : Word) : (raiseFault c w s).res = s.res := rfl
@[simp] theorem raiseFault_ts (c : FaultCause) (w : Word) : (raiseFault c w s).ts = s.ts := rfl
@[simp] theorem raiseFault_blen (c : FaultCause) (w : Word) : (raiseFault c w s).blen = s.blen := rfl
@[simp] theorem raiseFault_bbuf (c : FaultCause) (w : Word) : (raiseFault c w s).bbuf = s.bbuf := rfl
@[simp] theorem raiseFault_cprX0 (c : FaultCause) (w : Word) : (raiseFault c w s).cprX0 = s.cprX0 := rfl
@[simp] theorem raiseFault_cprY0 (c : FaultCause) (w : Word) : (raiseFault c w s).cprY0 = s.cprY0 := rfl
@[simp] theorem raiseFault_cprX1 (c : FaultCause) (w : Word) : (raiseFault c w s).cprX1 = s.cprX1 := rfl
@[simp] theorem raiseFault_cprY1 (c : FaultCause) (w : Word) : (raiseFault c w s).cprY1 = s.cprY1 := rfl
@[simp] theorem raiseFault_fr (c : FaultCause) (w : Word) : (raiseFault c w s).fr = s.fr := rfl
@[simp] theorem raiseFault_pos (c : FaultCause) (w : Word) : (raiseFault c w s).pos = s.pos := rfl
@[simp] theorem raiseFault_fifo (c : FaultCause) (w : Word) : (raiseFault c w s).fifo = s.fifo := rfl
@[simp] theorem raiseFault_lowByte (c : FaultCause) (w : Word) : (raiseFault c w s).lowByte = s.lowByte := rfl
@[simp] theorem raiseFault_nSamples (c : FaultCause) (w : Word) : (raiseFault c w s).nSamples = s.nSamples := rfl
@[simp] theorem raiseFault_hist (c : FaultCause) (w : Word) : (raiseFault c w s).hist = s.hist := rfl
@[simp] theorem raiseFault_half (c : FaultCause) (w : Word) : (raiseFault c w s).half = s.half := rfl
@[simp] theorem raiseFault_power (c : FaultCause) (w : Word) : (raiseFault c w s).power = s.power := rfl
@[simp] theorem raiseFault_moves (c : FaultCause) (w : Word) : (raiseFault c w s).moves = s.moves := rfl
@[simp] theorem raiseFault_turns (c : FaultCause) (w : Word) : (raiseFault c w s).turns = s.turns := rfl
@[simp] theorem raiseFault_accesses (c : FaultCause) (w : Word) : (raiseFault c w s).accesses = s.accesses := rfl
@[simp] theorem raiseFault_stream (c : FaultCause) (w : Word) : (raiseFault c w s).stream = s.stream := rfl
@[simp] theorem raiseFault_readData (c : FaultCause) (w : Word) : (raiseFault c w s).readData = s.readData := rfl

/-! raiseCmd -/

@[simp] theorem raiseCmd_demodEn (c : FaultCause) : (raiseCmd c s).demodEn = s.demodEn := rfl
@[simp] theorem raiseCmd_fault (c : FaultCause) : (raiseCmd c s).fault = true := rfl
@[simp] theorem raiseCmd_present (c : FaultCause) : (raiseCmd c s).present = s.present := rfl
@[simp] theorem raiseCmd_frValid (c : FaultCause) : (raiseCmd c s).frValid = s.frValid := rfl
@[simp] theorem raiseCmd_done (c : FaultCause) : (raiseCmd c s).done = s.done := rfl
@[simp] theorem raiseCmd_eos (c : FaultCause) : (raiseCmd c s).eos = s.eos := rfl
@[simp] theorem raiseCmd_faultCause (c : FaultCause) : (raiseCmd c s).faultCause = c := rfl
@[simp] theorem raiseCmd_faultInfo (c : FaultCause) : (raiseCmd c s).faultInfo = s.cmd := rfl
@[simp] theorem raiseCmd_cmd (c : FaultCause) : (raiseCmd c s).cmd = s.cmd := rfl
@[simp] theorem raiseCmd_opa (c : FaultCause) : (raiseCmd c s).opa = s.opa := rfl
@[simp] theorem raiseCmd_res (c : FaultCause) : (raiseCmd c s).res = s.res := rfl
@[simp] theorem raiseCmd_ts (c : FaultCause) : (raiseCmd c s).ts = s.ts := rfl
@[simp] theorem raiseCmd_blen (c : FaultCause) : (raiseCmd c s).blen = s.blen := rfl
@[simp] theorem raiseCmd_bbuf (c : FaultCause) : (raiseCmd c s).bbuf = s.bbuf := rfl
@[simp] theorem raiseCmd_cprX0 (c : FaultCause) : (raiseCmd c s).cprX0 = s.cprX0 := rfl
@[simp] theorem raiseCmd_cprY0 (c : FaultCause) : (raiseCmd c s).cprY0 = s.cprY0 := rfl
@[simp] theorem raiseCmd_cprX1 (c : FaultCause) : (raiseCmd c s).cprX1 = s.cprX1 := rfl
@[simp] theorem raiseCmd_cprY1 (c : FaultCause) : (raiseCmd c s).cprY1 = s.cprY1 := rfl
@[simp] theorem raiseCmd_fr (c : FaultCause) : (raiseCmd c s).fr = s.fr := rfl
@[simp] theorem raiseCmd_pos (c : FaultCause) : (raiseCmd c s).pos = s.pos := rfl
@[simp] theorem raiseCmd_fifo (c : FaultCause) : (raiseCmd c s).fifo = s.fifo := rfl
@[simp] theorem raiseCmd_lowByte (c : FaultCause) : (raiseCmd c s).lowByte = s.lowByte := rfl
@[simp] theorem raiseCmd_nSamples (c : FaultCause) : (raiseCmd c s).nSamples = s.nSamples := rfl
@[simp] theorem raiseCmd_hist (c : FaultCause) : (raiseCmd c s).hist = s.hist := rfl
@[simp] theorem raiseCmd_half (c : FaultCause) : (raiseCmd c s).half = s.half := rfl
@[simp] theorem raiseCmd_power (c : FaultCause) : (raiseCmd c s).power = s.power := rfl
@[simp] theorem raiseCmd_moves (c : FaultCause) : (raiseCmd c s).moves = s.moves := rfl
@[simp] theorem raiseCmd_turns (c : FaultCause) : (raiseCmd c s).turns = s.turns := rfl
@[simp] theorem raiseCmd_accesses (c : FaultCause) : (raiseCmd c s).accesses = s.accesses := rfl
@[simp] theorem raiseCmd_stream (c : FaultCause) : (raiseCmd c s).stream = s.stream := rfl
@[simp] theorem raiseCmd_readData (c : FaultCause) : (raiseCmd c s).readData = s.readData := rfl

/-! setPresent -/

@[simp] theorem setPresent_demodEn (v : DWord) : (setPresent v s).demodEn = s.demodEn := rfl
@[simp] theorem setPresent_fault (v : DWord) : (setPresent v s).fault = s.fault := rfl
@[simp] theorem setPresent_present (v : DWord) : (setPresent v s).present = true := rfl
@[simp] theorem setPresent_frValid (v : DWord) : (setPresent v s).frValid = s.frValid := rfl
@[simp] theorem setPresent_done (v : DWord) : (setPresent v s).done = s.done := rfl
@[simp] theorem setPresent_eos (v : DWord) : (setPresent v s).eos = s.eos := rfl
@[simp] theorem setPresent_faultCause (v : DWord) : (setPresent v s).faultCause = s.faultCause := rfl
@[simp] theorem setPresent_faultInfo (v : DWord) : (setPresent v s).faultInfo = s.faultInfo := rfl
@[simp] theorem setPresent_cmd (v : DWord) : (setPresent v s).cmd = s.cmd := rfl
@[simp] theorem setPresent_opa (v : DWord) : (setPresent v s).opa = s.opa := rfl
@[simp] theorem setPresent_res (v : DWord) : (setPresent v s).res = v := rfl
@[simp] theorem setPresent_ts (v : DWord) : (setPresent v s).ts = s.ts := rfl
@[simp] theorem setPresent_blen (v : DWord) : (setPresent v s).blen = s.blen := rfl
@[simp] theorem setPresent_bbuf (v : DWord) : (setPresent v s).bbuf = s.bbuf := rfl
@[simp] theorem setPresent_cprX0 (v : DWord) : (setPresent v s).cprX0 = s.cprX0 := rfl
@[simp] theorem setPresent_cprY0 (v : DWord) : (setPresent v s).cprY0 = s.cprY0 := rfl
@[simp] theorem setPresent_cprX1 (v : DWord) : (setPresent v s).cprX1 = s.cprX1 := rfl
@[simp] theorem setPresent_cprY1 (v : DWord) : (setPresent v s).cprY1 = s.cprY1 := rfl
@[simp] theorem setPresent_fr (v : DWord) : (setPresent v s).fr = s.fr := rfl
@[simp] theorem setPresent_pos (v : DWord) : (setPresent v s).pos = s.pos := rfl
@[simp] theorem setPresent_fifo (v : DWord) : (setPresent v s).fifo = s.fifo := rfl
@[simp] theorem setPresent_lowByte (v : DWord) : (setPresent v s).lowByte = s.lowByte := rfl
@[simp] theorem setPresent_nSamples (v : DWord) : (setPresent v s).nSamples = s.nSamples := rfl
@[simp] theorem setPresent_hist (v : DWord) : (setPresent v s).hist = s.hist := rfl
@[simp] theorem setPresent_half (v : DWord) : (setPresent v s).half = s.half := rfl
@[simp] theorem setPresent_power (v : DWord) : (setPresent v s).power = s.power := rfl
@[simp] theorem setPresent_moves (v : DWord) : (setPresent v s).moves = s.moves := rfl
@[simp] theorem setPresent_turns (v : DWord) : (setPresent v s).turns = s.turns := rfl
@[simp] theorem setPresent_accesses (v : DWord) : (setPresent v s).accesses = s.accesses := rfl
@[simp] theorem setPresent_stream (v : DWord) : (setPresent v s).stream = s.stream := rfl
@[simp] theorem setPresent_readData (v : DWord) : (setPresent v s).readData = s.readData := rfl

/-! setAbsent -/

@[simp] theorem setAbsent_demodEn : (setAbsent s).demodEn = s.demodEn := rfl
@[simp] theorem setAbsent_fault : (setAbsent s).fault = s.fault := rfl
@[simp] theorem setAbsent_present : (setAbsent s).present = false := rfl
@[simp] theorem setAbsent_frValid : (setAbsent s).frValid = s.frValid := rfl
@[simp] theorem setAbsent_done : (setAbsent s).done = s.done := rfl
@[simp] theorem setAbsent_eos : (setAbsent s).eos = s.eos := rfl
@[simp] theorem setAbsent_faultCause : (setAbsent s).faultCause = s.faultCause := rfl
@[simp] theorem setAbsent_faultInfo : (setAbsent s).faultInfo = s.faultInfo := rfl
@[simp] theorem setAbsent_cmd : (setAbsent s).cmd = s.cmd := rfl
@[simp] theorem setAbsent_opa : (setAbsent s).opa = s.opa := rfl
@[simp] theorem setAbsent_res : (setAbsent s).res = 0 := rfl
@[simp] theorem setAbsent_ts : (setAbsent s).ts = s.ts := rfl
@[simp] theorem setAbsent_blen : (setAbsent s).blen = s.blen := rfl
@[simp] theorem setAbsent_bbuf : (setAbsent s).bbuf = s.bbuf := rfl
@[simp] theorem setAbsent_cprX0 : (setAbsent s).cprX0 = s.cprX0 := rfl
@[simp] theorem setAbsent_cprY0 : (setAbsent s).cprY0 = s.cprY0 := rfl
@[simp] theorem setAbsent_cprX1 : (setAbsent s).cprX1 = s.cprX1 := rfl
@[simp] theorem setAbsent_cprY1 : (setAbsent s).cprY1 = s.cprY1 := rfl
@[simp] theorem setAbsent_fr : (setAbsent s).fr = s.fr := rfl
@[simp] theorem setAbsent_pos : (setAbsent s).pos = s.pos := rfl
@[simp] theorem setAbsent_fifo : (setAbsent s).fifo = s.fifo := rfl
@[simp] theorem setAbsent_lowByte : (setAbsent s).lowByte = s.lowByte := rfl
@[simp] theorem setAbsent_nSamples : (setAbsent s).nSamples = s.nSamples := rfl
@[simp] theorem setAbsent_hist : (setAbsent s).hist = s.hist := rfl
@[simp] theorem setAbsent_half : (setAbsent s).half = s.half := rfl
@[simp] theorem setAbsent_power : (setAbsent s).power = s.power := rfl
@[simp] theorem setAbsent_moves : (setAbsent s).moves = s.moves := rfl
@[simp] theorem setAbsent_turns : (setAbsent s).turns = s.turns := rfl
@[simp] theorem setAbsent_accesses : (setAbsent s).accesses = s.accesses := rfl
@[simp] theorem setAbsent_stream : (setAbsent s).stream = s.stream := rfl
@[simp] theorem setAbsent_readData : (setAbsent s).readData = s.readData := rfl

/-! loadFrame -/

@[simp] theorem loadFrame_demodEn (f : Frame) : (loadFrame f s).demodEn = s.demodEn := rfl
@[simp] theorem loadFrame_fault (f : Frame) : (loadFrame f s).fault = s.fault := rfl
@[simp] theorem loadFrame_present (f : Frame) : (loadFrame f s).present = s.present := rfl
@[simp] theorem loadFrame_frValid (f : Frame) : (loadFrame f s).frValid = true := rfl
@[simp] theorem loadFrame_done (f : Frame) : (loadFrame f s).done = s.done := rfl
@[simp] theorem loadFrame_eos (f : Frame) : (loadFrame f s).eos = s.eos := rfl
@[simp] theorem loadFrame_faultCause (f : Frame) : (loadFrame f s).faultCause = s.faultCause := rfl
@[simp] theorem loadFrame_faultInfo (f : Frame) : (loadFrame f s).faultInfo = s.faultInfo := rfl
@[simp] theorem loadFrame_cmd (f : Frame) : (loadFrame f s).cmd = s.cmd := rfl
@[simp] theorem loadFrame_opa (f : Frame) : (loadFrame f s).opa = s.opa := rfl
@[simp] theorem loadFrame_res (f : Frame) : (loadFrame f s).res = s.res := rfl
@[simp] theorem loadFrame_ts (f : Frame) : (loadFrame f s).ts = s.ts := rfl
@[simp] theorem loadFrame_blen (f : Frame) : (loadFrame f s).blen = s.blen := rfl
@[simp] theorem loadFrame_bbuf (f : Frame) : (loadFrame f s).bbuf = s.bbuf := rfl
@[simp] theorem loadFrame_cprX0 (f : Frame) : (loadFrame f s).cprX0 = s.cprX0 := rfl
@[simp] theorem loadFrame_cprY0 (f : Frame) : (loadFrame f s).cprY0 = s.cprY0 := rfl
@[simp] theorem loadFrame_cprX1 (f : Frame) : (loadFrame f s).cprX1 = s.cprX1 := rfl
@[simp] theorem loadFrame_cprY1 (f : Frame) : (loadFrame f s).cprY1 = s.cprY1 := rfl
@[simp] theorem loadFrame_fr (f : Frame) : (loadFrame f s).fr = f := rfl
@[simp] theorem loadFrame_pos (f : Frame) : (loadFrame f s).pos = s.pos := rfl
@[simp] theorem loadFrame_fifo (f : Frame) : (loadFrame f s).fifo = s.fifo := rfl
@[simp] theorem loadFrame_lowByte (f : Frame) : (loadFrame f s).lowByte = s.lowByte := rfl
@[simp] theorem loadFrame_nSamples (f : Frame) : (loadFrame f s).nSamples = s.nSamples := rfl
@[simp] theorem loadFrame_hist (f : Frame) : (loadFrame f s).hist = s.hist := rfl
@[simp] theorem loadFrame_half (f : Frame) : (loadFrame f s).half = s.half := rfl
@[simp] theorem loadFrame_power (f : Frame) : (loadFrame f s).power = s.power := rfl
@[simp] theorem loadFrame_moves (f : Frame) : (loadFrame f s).moves = s.moves := rfl
@[simp] theorem loadFrame_turns (f : Frame) : (loadFrame f s).turns = s.turns := rfl
@[simp] theorem loadFrame_accesses (f : Frame) : (loadFrame f s).accesses = s.accesses := rfl
@[simp] theorem loadFrame_stream (f : Frame) : (loadFrame f s).stream = s.stream := rfl
@[simp] theorem loadFrame_readData (f : Frame) : (loadFrame f s).readData = s.readData := rfl

/-! dropFrame -/

@[simp] theorem dropFrame_demodEn : (dropFrame s).demodEn = s.demodEn := rfl
@[simp] theorem dropFrame_fault : (dropFrame s).fault = s.fault := rfl
@[simp] theorem dropFrame_present : (dropFrame s).present = s.present := rfl
@[simp] theorem dropFrame_frValid : (dropFrame s).frValid = false := rfl
@[simp] theorem dropFrame_done : (dropFrame s).done = s.done := rfl
@[simp] theorem dropFrame_eos : (dropFrame s).eos = s.eos := rfl
@[simp] theorem dropFrame_faultCause : (dropFrame s).faultCause = s.faultCause := rfl
@[simp] theorem dropFrame_faultInfo : (dropFrame s).faultInfo = s.faultInfo := rfl
@[simp] theorem dropFrame_cmd : (dropFrame s).cmd = s.cmd := rfl
@[simp] theorem dropFrame_opa : (dropFrame s).opa = s.opa := rfl
@[simp] theorem dropFrame_res : (dropFrame s).res = s.res := rfl
@[simp] theorem dropFrame_ts : (dropFrame s).ts = s.ts := rfl
@[simp] theorem dropFrame_blen : (dropFrame s).blen = s.blen := rfl
@[simp] theorem dropFrame_bbuf : (dropFrame s).bbuf = s.bbuf := rfl
@[simp] theorem dropFrame_cprX0 : (dropFrame s).cprX0 = s.cprX0 := rfl
@[simp] theorem dropFrame_cprY0 : (dropFrame s).cprY0 = s.cprY0 := rfl
@[simp] theorem dropFrame_cprX1 : (dropFrame s).cprX1 = s.cprX1 := rfl
@[simp] theorem dropFrame_cprY1 : (dropFrame s).cprY1 = s.cprY1 := rfl
@[simp] theorem dropFrame_fr : (dropFrame s).fr = s.fr := rfl
@[simp] theorem dropFrame_pos : (dropFrame s).pos = s.pos := rfl
@[simp] theorem dropFrame_fifo : (dropFrame s).fifo = s.fifo := rfl
@[simp] theorem dropFrame_lowByte : (dropFrame s).lowByte = s.lowByte := rfl
@[simp] theorem dropFrame_nSamples : (dropFrame s).nSamples = s.nSamples := rfl
@[simp] theorem dropFrame_hist : (dropFrame s).hist = s.hist := rfl
@[simp] theorem dropFrame_half : (dropFrame s).half = s.half := rfl
@[simp] theorem dropFrame_power : (dropFrame s).power = s.power := rfl
@[simp] theorem dropFrame_moves : (dropFrame s).moves = s.moves := rfl
@[simp] theorem dropFrame_turns : (dropFrame s).turns = s.turns := rfl
@[simp] theorem dropFrame_accesses : (dropFrame s).accesses = s.accesses := rfl
@[simp] theorem dropFrame_stream : (dropFrame s).stream = s.stream := rfl
@[simp] theorem dropFrame_readData : (dropFrame s).readData = s.readData := rfl

/-! pushFrame -/

@[simp] theorem pushFrame_demodEn (f : Frame) : (pushFrame f s).demodEn = s.demodEn := rfl
@[simp] theorem pushFrame_fault (f : Frame) : (pushFrame f s).fault = s.fault := rfl
@[simp] theorem pushFrame_present (f : Frame) : (pushFrame f s).present = s.present := rfl
@[simp] theorem pushFrame_frValid (f : Frame) : (pushFrame f s).frValid = s.frValid := rfl
@[simp] theorem pushFrame_done (f : Frame) : (pushFrame f s).done = s.done := rfl
@[simp] theorem pushFrame_eos (f : Frame) : (pushFrame f s).eos = s.eos := rfl
@[simp] theorem pushFrame_faultCause (f : Frame) : (pushFrame f s).faultCause = s.faultCause := rfl
@[simp] theorem pushFrame_faultInfo (f : Frame) : (pushFrame f s).faultInfo = s.faultInfo := rfl
@[simp] theorem pushFrame_cmd (f : Frame) : (pushFrame f s).cmd = s.cmd := rfl
@[simp] theorem pushFrame_opa (f : Frame) : (pushFrame f s).opa = s.opa := rfl
@[simp] theorem pushFrame_res (f : Frame) : (pushFrame f s).res = s.res := rfl
@[simp] theorem pushFrame_ts (f : Frame) : (pushFrame f s).ts = s.ts := rfl
@[simp] theorem pushFrame_blen (f : Frame) : (pushFrame f s).blen = s.blen := rfl
@[simp] theorem pushFrame_bbuf (f : Frame) : (pushFrame f s).bbuf = s.bbuf := rfl
@[simp] theorem pushFrame_cprX0 (f : Frame) : (pushFrame f s).cprX0 = s.cprX0 := rfl
@[simp] theorem pushFrame_cprY0 (f : Frame) : (pushFrame f s).cprY0 = s.cprY0 := rfl
@[simp] theorem pushFrame_cprX1 (f : Frame) : (pushFrame f s).cprX1 = s.cprX1 := rfl
@[simp] theorem pushFrame_cprY1 (f : Frame) : (pushFrame f s).cprY1 = s.cprY1 := rfl
@[simp] theorem pushFrame_fr (f : Frame) : (pushFrame f s).fr = s.fr := rfl
@[simp] theorem pushFrame_pos (f : Frame) : (pushFrame f s).pos = s.pos := rfl
@[simp] theorem pushFrame_fifo (f : Frame) : (pushFrame f s).fifo = s.fifo ++ [f] := rfl
@[simp] theorem pushFrame_lowByte (f : Frame) : (pushFrame f s).lowByte = s.lowByte := rfl
@[simp] theorem pushFrame_nSamples (f : Frame) : (pushFrame f s).nSamples = s.nSamples := rfl
@[simp] theorem pushFrame_hist (f : Frame) : (pushFrame f s).hist = s.hist := rfl
@[simp] theorem pushFrame_half (f : Frame) : (pushFrame f s).half = s.half := rfl
@[simp] theorem pushFrame_power (f : Frame) : (pushFrame f s).power = s.power := rfl
@[simp] theorem pushFrame_moves (f : Frame) : (pushFrame f s).moves = s.moves := rfl
@[simp] theorem pushFrame_turns (f : Frame) : (pushFrame f s).turns = s.turns := rfl
@[simp] theorem pushFrame_accesses (f : Frame) : (pushFrame f s).accesses = s.accesses := rfl
@[simp] theorem pushFrame_stream (f : Frame) : (pushFrame f s).stream = s.stream := rfl
@[simp] theorem pushFrame_readData (f : Frame) : (pushFrame f s).readData = s.readData := rfl

/-! setPos -/

@[simp] theorem setPos_demodEn (p : DWord) : (setPos p s).demodEn = s.demodEn := rfl
@[simp] theorem setPos_fault (p : DWord) : (setPos p s).fault = s.fault := rfl
@[simp] theorem setPos_present (p : DWord) : (setPos p s).present = s.present := rfl
@[simp] theorem setPos_frValid (p : DWord) : (setPos p s).frValid = s.frValid := rfl
@[simp] theorem setPos_done (p : DWord) : (setPos p s).done = s.done := rfl
@[simp] theorem setPos_eos (p : DWord) : (setPos p s).eos = s.eos := rfl
@[simp] theorem setPos_faultCause (p : DWord) : (setPos p s).faultCause = s.faultCause := rfl
@[simp] theorem setPos_faultInfo (p : DWord) : (setPos p s).faultInfo = s.faultInfo := rfl
@[simp] theorem setPos_cmd (p : DWord) : (setPos p s).cmd = s.cmd := rfl
@[simp] theorem setPos_opa (p : DWord) : (setPos p s).opa = s.opa := rfl
@[simp] theorem setPos_res (p : DWord) : (setPos p s).res = s.res := rfl
@[simp] theorem setPos_ts (p : DWord) : (setPos p s).ts = s.ts := rfl
@[simp] theorem setPos_blen (p : DWord) : (setPos p s).blen = s.blen := rfl
@[simp] theorem setPos_bbuf (p : DWord) : (setPos p s).bbuf = s.bbuf := rfl
@[simp] theorem setPos_cprX0 (p : DWord) : (setPos p s).cprX0 = s.cprX0 := rfl
@[simp] theorem setPos_cprY0 (p : DWord) : (setPos p s).cprY0 = s.cprY0 := rfl
@[simp] theorem setPos_cprX1 (p : DWord) : (setPos p s).cprX1 = s.cprX1 := rfl
@[simp] theorem setPos_cprY1 (p : DWord) : (setPos p s).cprY1 = s.cprY1 := rfl
@[simp] theorem setPos_fr (p : DWord) : (setPos p s).fr = s.fr := rfl
@[simp] theorem setPos_pos (p : DWord) : (setPos p s).pos = p := rfl
@[simp] theorem setPos_fifo (p : DWord) : (setPos p s).fifo = s.fifo := rfl
@[simp] theorem setPos_lowByte (p : DWord) : (setPos p s).lowByte = s.lowByte := rfl
@[simp] theorem setPos_nSamples (p : DWord) : (setPos p s).nSamples = s.nSamples := rfl
@[simp] theorem setPos_hist (p : DWord) : (setPos p s).hist = s.hist := rfl
@[simp] theorem setPos_half (p : DWord) : (setPos p s).half = s.half := rfl
@[simp] theorem setPos_power (p : DWord) : (setPos p s).power = s.power := rfl
@[simp] theorem setPos_moves (p : DWord) : (setPos p s).moves = s.moves := rfl
@[simp] theorem setPos_turns (p : DWord) : (setPos p s).turns = s.turns := rfl
@[simp] theorem setPos_accesses (p : DWord) : (setPos p s).accesses = s.accesses := rfl
@[simp] theorem setPos_stream (p : DWord) : (setPos p s).stream = s.stream := rfl
@[simp] theorem setPos_readData (p : DWord) : (setPos p s).readData = s.readData := rfl

/-! setCprEven -/

@[simp] theorem setCprEven_demodEn (x y : CprField) : (setCprEven x y s).demodEn = s.demodEn := rfl
@[simp] theorem setCprEven_fault (x y : CprField) : (setCprEven x y s).fault = s.fault := rfl
@[simp] theorem setCprEven_present (x y : CprField) : (setCprEven x y s).present = s.present := rfl
@[simp] theorem setCprEven_frValid (x y : CprField) : (setCprEven x y s).frValid = s.frValid := rfl
@[simp] theorem setCprEven_done (x y : CprField) : (setCprEven x y s).done = s.done := rfl
@[simp] theorem setCprEven_eos (x y : CprField) : (setCprEven x y s).eos = s.eos := rfl
@[simp] theorem setCprEven_faultCause (x y : CprField) : (setCprEven x y s).faultCause = s.faultCause := rfl
@[simp] theorem setCprEven_faultInfo (x y : CprField) : (setCprEven x y s).faultInfo = s.faultInfo := rfl
@[simp] theorem setCprEven_cmd (x y : CprField) : (setCprEven x y s).cmd = s.cmd := rfl
@[simp] theorem setCprEven_opa (x y : CprField) : (setCprEven x y s).opa = s.opa := rfl
@[simp] theorem setCprEven_res (x y : CprField) : (setCprEven x y s).res = s.res := rfl
@[simp] theorem setCprEven_ts (x y : CprField) : (setCprEven x y s).ts = s.ts := rfl
@[simp] theorem setCprEven_blen (x y : CprField) : (setCprEven x y s).blen = s.blen := rfl
@[simp] theorem setCprEven_bbuf (x y : CprField) : (setCprEven x y s).bbuf = s.bbuf := rfl
@[simp] theorem setCprEven_cprX0 (x y : CprField) : (setCprEven x y s).cprX0 = x := rfl
@[simp] theorem setCprEven_cprY0 (x y : CprField) : (setCprEven x y s).cprY0 = y := rfl
@[simp] theorem setCprEven_cprX1 (x y : CprField) : (setCprEven x y s).cprX1 = s.cprX1 := rfl
@[simp] theorem setCprEven_cprY1 (x y : CprField) : (setCprEven x y s).cprY1 = s.cprY1 := rfl
@[simp] theorem setCprEven_fr (x y : CprField) : (setCprEven x y s).fr = s.fr := rfl
@[simp] theorem setCprEven_pos (x y : CprField) : (setCprEven x y s).pos = s.pos := rfl
@[simp] theorem setCprEven_fifo (x y : CprField) : (setCprEven x y s).fifo = s.fifo := rfl
@[simp] theorem setCprEven_lowByte (x y : CprField) : (setCprEven x y s).lowByte = s.lowByte := rfl
@[simp] theorem setCprEven_nSamples (x y : CprField) : (setCprEven x y s).nSamples = s.nSamples := rfl
@[simp] theorem setCprEven_hist (x y : CprField) : (setCprEven x y s).hist = s.hist := rfl
@[simp] theorem setCprEven_half (x y : CprField) : (setCprEven x y s).half = s.half := rfl
@[simp] theorem setCprEven_power (x y : CprField) : (setCprEven x y s).power = s.power := rfl
@[simp] theorem setCprEven_moves (x y : CprField) : (setCprEven x y s).moves = s.moves := rfl
@[simp] theorem setCprEven_turns (x y : CprField) : (setCprEven x y s).turns = s.turns := rfl
@[simp] theorem setCprEven_accesses (x y : CprField) : (setCprEven x y s).accesses = s.accesses := rfl
@[simp] theorem setCprEven_stream (x y : CprField) : (setCprEven x y s).stream = s.stream := rfl
@[simp] theorem setCprEven_readData (x y : CprField) : (setCprEven x y s).readData = s.readData := rfl

/-! setCprOdd -/

@[simp] theorem setCprOdd_demodEn (x y : CprField) : (setCprOdd x y s).demodEn = s.demodEn := rfl
@[simp] theorem setCprOdd_fault (x y : CprField) : (setCprOdd x y s).fault = s.fault := rfl
@[simp] theorem setCprOdd_present (x y : CprField) : (setCprOdd x y s).present = s.present := rfl
@[simp] theorem setCprOdd_frValid (x y : CprField) : (setCprOdd x y s).frValid = s.frValid := rfl
@[simp] theorem setCprOdd_done (x y : CprField) : (setCprOdd x y s).done = s.done := rfl
@[simp] theorem setCprOdd_eos (x y : CprField) : (setCprOdd x y s).eos = s.eos := rfl
@[simp] theorem setCprOdd_faultCause (x y : CprField) : (setCprOdd x y s).faultCause = s.faultCause := rfl
@[simp] theorem setCprOdd_faultInfo (x y : CprField) : (setCprOdd x y s).faultInfo = s.faultInfo := rfl
@[simp] theorem setCprOdd_cmd (x y : CprField) : (setCprOdd x y s).cmd = s.cmd := rfl
@[simp] theorem setCprOdd_opa (x y : CprField) : (setCprOdd x y s).opa = s.opa := rfl
@[simp] theorem setCprOdd_res (x y : CprField) : (setCprOdd x y s).res = s.res := rfl
@[simp] theorem setCprOdd_ts (x y : CprField) : (setCprOdd x y s).ts = s.ts := rfl
@[simp] theorem setCprOdd_blen (x y : CprField) : (setCprOdd x y s).blen = s.blen := rfl
@[simp] theorem setCprOdd_bbuf (x y : CprField) : (setCprOdd x y s).bbuf = s.bbuf := rfl
@[simp] theorem setCprOdd_cprX0 (x y : CprField) : (setCprOdd x y s).cprX0 = s.cprX0 := rfl
@[simp] theorem setCprOdd_cprY0 (x y : CprField) : (setCprOdd x y s).cprY0 = s.cprY0 := rfl
@[simp] theorem setCprOdd_cprX1 (x y : CprField) : (setCprOdd x y s).cprX1 = x := rfl
@[simp] theorem setCprOdd_cprY1 (x y : CprField) : (setCprOdd x y s).cprY1 = y := rfl
@[simp] theorem setCprOdd_fr (x y : CprField) : (setCprOdd x y s).fr = s.fr := rfl
@[simp] theorem setCprOdd_pos (x y : CprField) : (setCprOdd x y s).pos = s.pos := rfl
@[simp] theorem setCprOdd_fifo (x y : CprField) : (setCprOdd x y s).fifo = s.fifo := rfl
@[simp] theorem setCprOdd_lowByte (x y : CprField) : (setCprOdd x y s).lowByte = s.lowByte := rfl
@[simp] theorem setCprOdd_nSamples (x y : CprField) : (setCprOdd x y s).nSamples = s.nSamples := rfl
@[simp] theorem setCprOdd_hist (x y : CprField) : (setCprOdd x y s).hist = s.hist := rfl
@[simp] theorem setCprOdd_half (x y : CprField) : (setCprOdd x y s).half = s.half := rfl
@[simp] theorem setCprOdd_power (x y : CprField) : (setCprOdd x y s).power = s.power := rfl
@[simp] theorem setCprOdd_moves (x y : CprField) : (setCprOdd x y s).moves = s.moves := rfl
@[simp] theorem setCprOdd_turns (x y : CprField) : (setCprOdd x y s).turns = s.turns := rfl
@[simp] theorem setCprOdd_accesses (x y : CprField) : (setCprOdd x y s).accesses = s.accesses := rfl
@[simp] theorem setCprOdd_stream (x y : CprField) : (setCprOdd x y s).stream = s.stream := rfl
@[simp] theorem setCprOdd_readData (x y : CprField) : (setCprOdd x y s).readData = s.readData := rfl

/-! returnData -/

@[simp] theorem returnData_demodEn (v : Word) : (returnData v s).demodEn = s.demodEn := rfl
@[simp] theorem returnData_fault (v : Word) : (returnData v s).fault = s.fault := rfl
@[simp] theorem returnData_present (v : Word) : (returnData v s).present = s.present := rfl
@[simp] theorem returnData_frValid (v : Word) : (returnData v s).frValid = s.frValid := rfl
@[simp] theorem returnData_done (v : Word) : (returnData v s).done = s.done := rfl
@[simp] theorem returnData_eos (v : Word) : (returnData v s).eos = s.eos := rfl
@[simp] theorem returnData_faultCause (v : Word) : (returnData v s).faultCause = s.faultCause := rfl
@[simp] theorem returnData_faultInfo (v : Word) : (returnData v s).faultInfo = s.faultInfo := rfl
@[simp] theorem returnData_cmd (v : Word) : (returnData v s).cmd = s.cmd := rfl
@[simp] theorem returnData_opa (v : Word) : (returnData v s).opa = s.opa := rfl
@[simp] theorem returnData_res (v : Word) : (returnData v s).res = s.res := rfl
@[simp] theorem returnData_ts (v : Word) : (returnData v s).ts = s.ts := rfl
@[simp] theorem returnData_blen (v : Word) : (returnData v s).blen = s.blen := rfl
@[simp] theorem returnData_bbuf (v : Word) : (returnData v s).bbuf = s.bbuf := rfl
@[simp] theorem returnData_cprX0 (v : Word) : (returnData v s).cprX0 = s.cprX0 := rfl
@[simp] theorem returnData_cprY0 (v : Word) : (returnData v s).cprY0 = s.cprY0 := rfl
@[simp] theorem returnData_cprX1 (v : Word) : (returnData v s).cprX1 = s.cprX1 := rfl
@[simp] theorem returnData_cprY1 (v : Word) : (returnData v s).cprY1 = s.cprY1 := rfl
@[simp] theorem returnData_fr (v : Word) : (returnData v s).fr = s.fr := rfl
@[simp] theorem returnData_pos (v : Word) : (returnData v s).pos = s.pos := rfl
@[simp] theorem returnData_fifo (v : Word) : (returnData v s).fifo = s.fifo := rfl
@[simp] theorem returnData_lowByte (v : Word) : (returnData v s).lowByte = s.lowByte := rfl
@[simp] theorem returnData_nSamples (v : Word) : (returnData v s).nSamples = s.nSamples := rfl
@[simp] theorem returnData_hist (v : Word) : (returnData v s).hist = s.hist := rfl
@[simp] theorem returnData_half (v : Word) : (returnData v s).half = s.half := rfl
@[simp] theorem returnData_power (v : Word) : (returnData v s).power = s.power := rfl
@[simp] theorem returnData_moves (v : Word) : (returnData v s).moves = s.moves := rfl
@[simp] theorem returnData_turns (v : Word) : (returnData v s).turns = s.turns := rfl
@[simp] theorem returnData_accesses (v : Word) : (returnData v s).accesses = s.accesses := rfl
@[simp] theorem returnData_stream (v : Word) : (returnData v s).stream = s.stream := rfl
@[simp] theorem returnData_readData (v : Word) : (returnData v s).readData = some v := rfl

/-! takeTurn -/

@[simp] theorem takeTurn_demodEn : (takeTurn s).demodEn = s.demodEn := rfl
@[simp] theorem takeTurn_fault : (takeTurn s).fault = s.fault := rfl
@[simp] theorem takeTurn_present : (takeTurn s).present = s.present := rfl
@[simp] theorem takeTurn_frValid : (takeTurn s).frValid = s.frValid := rfl
@[simp] theorem takeTurn_done : (takeTurn s).done = s.done := rfl
@[simp] theorem takeTurn_eos : (takeTurn s).eos = s.eos := rfl
@[simp] theorem takeTurn_faultCause : (takeTurn s).faultCause = s.faultCause := rfl
@[simp] theorem takeTurn_faultInfo : (takeTurn s).faultInfo = s.faultInfo := rfl
@[simp] theorem takeTurn_cmd : (takeTurn s).cmd = s.cmd := rfl
@[simp] theorem takeTurn_opa : (takeTurn s).opa = s.opa := rfl
@[simp] theorem takeTurn_res : (takeTurn s).res = s.res := rfl
@[simp] theorem takeTurn_ts : (takeTurn s).ts = s.ts := rfl
@[simp] theorem takeTurn_blen : (takeTurn s).blen = s.blen := rfl
@[simp] theorem takeTurn_bbuf : (takeTurn s).bbuf = s.bbuf := rfl
@[simp] theorem takeTurn_cprX0 : (takeTurn s).cprX0 = s.cprX0 := rfl
@[simp] theorem takeTurn_cprY0 : (takeTurn s).cprY0 = s.cprY0 := rfl
@[simp] theorem takeTurn_cprX1 : (takeTurn s).cprX1 = s.cprX1 := rfl
@[simp] theorem takeTurn_cprY1 : (takeTurn s).cprY1 = s.cprY1 := rfl
@[simp] theorem takeTurn_fr : (takeTurn s).fr = s.fr := rfl
@[simp] theorem takeTurn_pos : (takeTurn s).pos = s.pos := rfl
@[simp] theorem takeTurn_fifo : (takeTurn s).fifo = s.fifo := rfl
@[simp] theorem takeTurn_lowByte : (takeTurn s).lowByte = s.lowByte := rfl
@[simp] theorem takeTurn_nSamples : (takeTurn s).nSamples = s.nSamples := rfl
@[simp] theorem takeTurn_hist : (takeTurn s).hist = s.hist := rfl
@[simp] theorem takeTurn_half : (takeTurn s).half = s.half := rfl
@[simp] theorem takeTurn_power : (takeTurn s).power = s.power := rfl
@[simp] theorem takeTurn_moves : (takeTurn s).moves = s.moves + 1 := rfl
@[simp] theorem takeTurn_turns : (takeTurn s).turns = s.turns.tail := rfl
@[simp] theorem takeTurn_accesses : (takeTurn s).accesses = s.accesses := rfl
@[simp] theorem takeTurn_stream : (takeTurn s).stream = s.stream := rfl
@[simp] theorem takeTurn_readData : (takeTurn s).readData = s.readData := rfl

/-! takeAccess -/

@[simp] theorem takeAccess_demodEn : (takeAccess s).demodEn = s.demodEn := rfl
@[simp] theorem takeAccess_fault : (takeAccess s).fault = s.fault := rfl
@[simp] theorem takeAccess_present : (takeAccess s).present = s.present := rfl
@[simp] theorem takeAccess_frValid : (takeAccess s).frValid = s.frValid := rfl
@[simp] theorem takeAccess_done : (takeAccess s).done = s.done := rfl
@[simp] theorem takeAccess_eos : (takeAccess s).eos = s.eos := rfl
@[simp] theorem takeAccess_faultCause : (takeAccess s).faultCause = s.faultCause := rfl
@[simp] theorem takeAccess_faultInfo : (takeAccess s).faultInfo = s.faultInfo := rfl
@[simp] theorem takeAccess_cmd : (takeAccess s).cmd = s.cmd := rfl
@[simp] theorem takeAccess_opa : (takeAccess s).opa = s.opa := rfl
@[simp] theorem takeAccess_res : (takeAccess s).res = s.res := rfl
@[simp] theorem takeAccess_ts : (takeAccess s).ts = s.ts := rfl
@[simp] theorem takeAccess_blen : (takeAccess s).blen = s.blen := rfl
@[simp] theorem takeAccess_bbuf : (takeAccess s).bbuf = s.bbuf := rfl
@[simp] theorem takeAccess_cprX0 : (takeAccess s).cprX0 = s.cprX0 := rfl
@[simp] theorem takeAccess_cprY0 : (takeAccess s).cprY0 = s.cprY0 := rfl
@[simp] theorem takeAccess_cprX1 : (takeAccess s).cprX1 = s.cprX1 := rfl
@[simp] theorem takeAccess_cprY1 : (takeAccess s).cprY1 = s.cprY1 := rfl
@[simp] theorem takeAccess_fr : (takeAccess s).fr = s.fr := rfl
@[simp] theorem takeAccess_pos : (takeAccess s).pos = s.pos := rfl
@[simp] theorem takeAccess_fifo : (takeAccess s).fifo = s.fifo := rfl
@[simp] theorem takeAccess_lowByte : (takeAccess s).lowByte = s.lowByte := rfl
@[simp] theorem takeAccess_nSamples : (takeAccess s).nSamples = s.nSamples := rfl
@[simp] theorem takeAccess_hist : (takeAccess s).hist = s.hist := rfl
@[simp] theorem takeAccess_half : (takeAccess s).half = s.half := rfl
@[simp] theorem takeAccess_power : (takeAccess s).power = s.power := rfl
@[simp] theorem takeAccess_moves : (takeAccess s).moves = s.moves := rfl
@[simp] theorem takeAccess_turns : (takeAccess s).turns = s.turns := rfl
@[simp] theorem takeAccess_accesses : (takeAccess s).accesses = s.accesses.tail := rfl
@[simp] theorem takeAccess_stream : (takeAccess s).stream = s.stream := rfl
@[simp] theorem takeAccess_readData : (takeAccess s).readData = s.readData := rfl

/-! takeItem -/

@[simp] theorem takeItem_demodEn : (takeItem s).demodEn = s.demodEn := rfl
@[simp] theorem takeItem_fault : (takeItem s).fault = s.fault := rfl
@[simp] theorem takeItem_present : (takeItem s).present = s.present := rfl
@[simp] theorem takeItem_frValid : (takeItem s).frValid = s.frValid := rfl
@[simp] theorem takeItem_done : (takeItem s).done = s.done := rfl
@[simp] theorem takeItem_eos : (takeItem s).eos = s.eos := rfl
@[simp] theorem takeItem_faultCause : (takeItem s).faultCause = s.faultCause := rfl
@[simp] theorem takeItem_faultInfo : (takeItem s).faultInfo = s.faultInfo := rfl
@[simp] theorem takeItem_cmd : (takeItem s).cmd = s.cmd := rfl
@[simp] theorem takeItem_opa : (takeItem s).opa = s.opa := rfl
@[simp] theorem takeItem_res : (takeItem s).res = s.res := rfl
@[simp] theorem takeItem_ts : (takeItem s).ts = s.ts := rfl
@[simp] theorem takeItem_blen : (takeItem s).blen = s.blen := rfl
@[simp] theorem takeItem_bbuf : (takeItem s).bbuf = s.bbuf := rfl
@[simp] theorem takeItem_cprX0 : (takeItem s).cprX0 = s.cprX0 := rfl
@[simp] theorem takeItem_cprY0 : (takeItem s).cprY0 = s.cprY0 := rfl
@[simp] theorem takeItem_cprX1 : (takeItem s).cprX1 = s.cprX1 := rfl
@[simp] theorem takeItem_cprY1 : (takeItem s).cprY1 = s.cprY1 := rfl
@[simp] theorem takeItem_fr : (takeItem s).fr = s.fr := rfl
@[simp] theorem takeItem_pos : (takeItem s).pos = s.pos := rfl
@[simp] theorem takeItem_fifo : (takeItem s).fifo = s.fifo := rfl
@[simp] theorem takeItem_lowByte : (takeItem s).lowByte = s.lowByte := rfl
@[simp] theorem takeItem_nSamples : (takeItem s).nSamples = s.nSamples := rfl
@[simp] theorem takeItem_hist : (takeItem s).hist = s.hist := rfl
@[simp] theorem takeItem_half : (takeItem s).half = s.half := rfl
@[simp] theorem takeItem_power : (takeItem s).power = s.power := rfl
@[simp] theorem takeItem_moves : (takeItem s).moves = s.moves := rfl
@[simp] theorem takeItem_turns : (takeItem s).turns = s.turns := rfl
@[simp] theorem takeItem_accesses : (takeItem s).accesses = s.accesses := rfl
@[simp] theorem takeItem_stream : (takeItem s).stream = s.stream.tail := rfl
@[simp] theorem takeItem_readData : (takeItem s).readData = s.readData := rfl

/-! endStream -/

@[simp] theorem endStream_demodEn : (endStream s).demodEn = s.demodEn := rfl
@[simp] theorem endStream_fault : (endStream s).fault = s.fault := rfl
@[simp] theorem endStream_present : (endStream s).present = s.present := rfl
@[simp] theorem endStream_frValid : (endStream s).frValid = s.frValid := rfl
@[simp] theorem endStream_done : (endStream s).done = s.done := rfl
@[simp] theorem endStream_eos : (endStream s).eos = true := rfl
@[simp] theorem endStream_faultCause : (endStream s).faultCause = s.faultCause := rfl
@[simp] theorem endStream_faultInfo : (endStream s).faultInfo = s.faultInfo := rfl
@[simp] theorem endStream_cmd : (endStream s).cmd = s.cmd := rfl
@[simp] theorem endStream_opa : (endStream s).opa = s.opa := rfl
@[simp] theorem endStream_res : (endStream s).res = s.res := rfl
@[simp] theorem endStream_ts : (endStream s).ts = s.ts := rfl
@[simp] theorem endStream_blen : (endStream s).blen = s.blen := rfl
@[simp] theorem endStream_bbuf : (endStream s).bbuf = s.bbuf := rfl
@[simp] theorem endStream_cprX0 : (endStream s).cprX0 = s.cprX0 := rfl
@[simp] theorem endStream_cprY0 : (endStream s).cprY0 = s.cprY0 := rfl
@[simp] theorem endStream_cprX1 : (endStream s).cprX1 = s.cprX1 := rfl
@[simp] theorem endStream_cprY1 : (endStream s).cprY1 = s.cprY1 := rfl
@[simp] theorem endStream_fr : (endStream s).fr = s.fr := rfl
@[simp] theorem endStream_pos : (endStream s).pos = s.pos := rfl
@[simp] theorem endStream_fifo : (endStream s).fifo = s.fifo := rfl
@[simp] theorem endStream_lowByte : (endStream s).lowByte = none := rfl
@[simp] theorem endStream_nSamples : (endStream s).nSamples = s.nSamples := rfl
@[simp] theorem endStream_hist : (endStream s).hist = s.hist := rfl
@[simp] theorem endStream_half : (endStream s).half = none := rfl
@[simp] theorem endStream_power : (endStream s).power = s.power := rfl
@[simp] theorem endStream_moves : (endStream s).moves = s.moves := rfl
@[simp] theorem endStream_turns : (endStream s).turns = s.turns := rfl
@[simp] theorem endStream_accesses : (endStream s).accesses = s.accesses := rfl
@[simp] theorem endStream_stream : (endStream s).stream = s.stream := rfl
@[simp] theorem endStream_readData : (endStream s).readData = s.readData := rfl

/-! softReset -/

@[simp] theorem softReset_demodEn : (softReset s).demodEn = State.reset.demodEn := rfl
@[simp] theorem softReset_fault : (softReset s).fault = State.reset.fault := rfl
@[simp] theorem softReset_present : (softReset s).present = State.reset.present := rfl
@[simp] theorem softReset_frValid : (softReset s).frValid = State.reset.frValid := rfl
@[simp] theorem softReset_done : (softReset s).done = State.reset.done := rfl
@[simp] theorem softReset_eos : (softReset s).eos = State.reset.eos := rfl
@[simp] theorem softReset_faultCause : (softReset s).faultCause = State.reset.faultCause := rfl
@[simp] theorem softReset_faultInfo : (softReset s).faultInfo = State.reset.faultInfo := rfl
@[simp] theorem softReset_cmd : (softReset s).cmd = State.reset.cmd := rfl
@[simp] theorem softReset_opa : (softReset s).opa = State.reset.opa := rfl
@[simp] theorem softReset_res : (softReset s).res = State.reset.res := rfl
@[simp] theorem softReset_ts : (softReset s).ts = State.reset.ts := rfl
@[simp] theorem softReset_blen : (softReset s).blen = State.reset.blen := rfl
@[simp] theorem softReset_bbuf : (softReset s).bbuf = State.reset.bbuf := rfl
@[simp] theorem softReset_cprX0 : (softReset s).cprX0 = State.reset.cprX0 := rfl
@[simp] theorem softReset_cprY0 : (softReset s).cprY0 = State.reset.cprY0 := rfl
@[simp] theorem softReset_cprX1 : (softReset s).cprX1 = State.reset.cprX1 := rfl
@[simp] theorem softReset_cprY1 : (softReset s).cprY1 = State.reset.cprY1 := rfl
@[simp] theorem softReset_fr : (softReset s).fr = State.reset.fr := rfl
@[simp] theorem softReset_pos : (softReset s).pos = State.reset.pos := rfl
@[simp] theorem softReset_fifo : (softReset s).fifo = State.reset.fifo := rfl
@[simp] theorem softReset_lowByte : (softReset s).lowByte = State.reset.lowByte := rfl
@[simp] theorem softReset_nSamples : (softReset s).nSamples = State.reset.nSamples := rfl
@[simp] theorem softReset_hist : (softReset s).hist = State.reset.hist := rfl
@[simp] theorem softReset_half : (softReset s).half = State.reset.half := rfl
@[simp] theorem softReset_power : (softReset s).power = State.reset.power := rfl
@[simp] theorem softReset_moves : (softReset s).moves = s.moves := rfl
@[simp] theorem softReset_turns : (softReset s).turns = s.turns := rfl
@[simp] theorem softReset_accesses : (softReset s).accesses = s.accesses := rfl
@[simp] theorem softReset_stream : (softReset s).stream = s.stream := rfl
@[simp] theorem softReset_readData : (softReset s).readData = s.readData := rfl

end Sys2Proof.Machine
end

