-- ==== Sys2Proof/Laws/Commands.lean ====
section
/-!
SUPPORT. What a command can do, said once per shared operation and once for `exec`.
-/

namespace Sys2Proof.Machine

/-- An accessor either has a frame and goes on, or faults NO_FRAME. -/
theorem needFrame_cases {s k t : State} (h : needFrame s k = .next t) :
    (s.frValid = true ∧ t = k) ∨ (s.frValid = false ∧ t = raiseCmd .noFrame s) := by
  unfold needFrame at h
  split at h <;> cases h <;> simp_all

theorem execBvExtract_cases {start size : Byte} {s t : State} (h : execBvExtract start size s = .next t) :
    t = raiseCmd .fieldRange s ∨ ∃ v, t = setPresent v s := by
  unfold execBvExtract at h
  split at h
  · cases h; exact .inl rfl
  · split at h <;> cases h
    · exact .inl rfl
    · exact .inr ⟨_, rfl⟩

theorem execBvTestbit_cases {index : Byte} {s t : State} (h : execBvTestbit index s = .next t) :
    t = raiseCmd .bitIndex s ∨ ∃ v, t = setPresent v s := by
  unfold execBvTestbit at h
  split at h <;> cases h
  · exact .inl rfl
  · exact .inr ⟨_, rfl⟩

theorem execBsByteat_cases {index : Byte} {s t : State} (h : execBsByteat index s = .next t) :
    t = raiseCmd .byteIndex s ∨ ∃ v, t = setPresent v s := by
  unfold execBsByteat at h
  split at h <;> cases h
  · exact .inl rfl
  · exact .inr ⟨_, rfl⟩

theorem execBsRange_cases {lo hi : Byte} {s t : State} (h : execBsRange lo hi s = .next t) :
    t = raiseCmd .byteIndex s ∨ t = raiseCmd .byteSpan s ∨ ∃ v, t = setPresent v s := by
  unfold execBsRange at h
  split at h
  · cases h; exact .inl rfl
  · split at h <;> cases h
    · exact .inr (.inl rfl)
    · exact .inr (.inr ⟨_, rfl⟩)

theorem execRfOf_cases {s t : State} (h : execRfOf s = .next t) :
    t = raiseCmd .frameLength s ∨ t = raiseCmd .negTimestamp s ∨ t = setAbsent (dropFrame s) ∨
      ∃ f : Frame, crc f.bytes.toList = 0 ∧ f.ts.msb = false ∧ t = setPresent 0 (loadFrame f s) := by
  unfold execRfOf at h
  split at h
  · cases h; exact .inl rfl
  · split at h
    · cases h; exact .inr (.inl rfl)
    · split at h <;> cases h
      · exact .inr (.inr (.inl rfl))
      · refine .inr (.inr (.inr ⟨_, ?_, ?_, rfl⟩)) <;> simp_all

theorem execRfClass_cases {s t : State} (h : execRfClass s = .next t) :
    t = raiseCmd .noFrame s ∨ t = setAbsent s ∨ ∃ v, t = setPresent v s := by
  unfold execRfClass at h
  obtain ⟨-, rfl⟩ | ⟨-, rfl⟩ := needFrame_cases h
  · split
    · exact .inr (.inl rfl)
    · exact .inr (.inr ⟨_, rfl⟩)
  · exact .inl rfl

theorem execRfCprload_cases {s t : State} (h : execRfCprload s = .next t) :
    t = raiseCmd .noFrame s ∨ t = setAbsent s ∨ (∃ x y, t = setPresent 1 (setCprOdd x y s)) ∨
      ∃ x y, t = setPresent 0 (setCprEven x y s) := by
  unfold execRfCprload at h
  obtain ⟨-, rfl⟩ | ⟨-, rfl⟩ := needFrame_cases h
  · split
    · exact .inr (.inl rfl)
    · split
      · exact .inr (.inr (.inl ⟨_, _, rfl⟩))
      · exact .inr (.inr (.inr ⟨_, _, rfl⟩))
  · exact .inl rfl

theorem execCprDecode_cases {a : Byte} {s t : State} (h : execCprDecode a s = .next t) :
    t = setAbsent s ∨ ∃ v, t = setPresent v s := by
  unfold execCprDecode at h
  split at h <;> cases h
  · exact .inr ⟨_, rfl⟩
  · exact .inl rfl

theorem execFifoPop_cases {s t : State} (h : execFifoPop s = .next t) :
    (s.fifo = [] ∧ t = raiseCmd .fifoEmpty s) ∨
      ∃ e rest v, s.fifo = e :: rest ∧ t = setPresent v (loadFrame e { s with fifo := rest }) := by
  unfold execFifoPop at h
  split at h <;> cases h
  · exact .inl ⟨by assumption, rfl⟩
  · exact .inr ⟨_, _, _, by assumption, rfl⟩

/-- Everything a command can do: nothing (NOP), a command fault, a present or absent result, and, for the commands
named, a frame dropped or loaded, the FIFO's head taken, or a CPR half written. -/
inductive Effect (s : State) : Instr → State → Prop where
  | nop : Effect s .nop s
  | fault (i : Instr) (c : FaultCause) (hc : c ≠ .none) : Effect s i (raiseCmd c s)
  | present (i : Instr) (hi : i ≠ .nop) (v : DWord) : Effect s i (setPresent v s)
  | absent (i : Instr) (hi : i ≠ .nop) : Effect s i (setAbsent s)
  | frameDropped : Effect s .rfOf (setAbsent (dropFrame s))
  | frameBuilt (f : Frame) (hc : crc f.bytes.toList = 0) (ht : f.ts.msb = false) :
      Effect s .rfOf (setPresent 0 (loadFrame f s))
  | framePopped (e : Frame) (rest : List Frame) (v : DWord) (h : s.fifo = e :: rest) :
      Effect s .fifoPop (setPresent v (loadFrame e { s with fifo := rest }))
  | cprEven (x y : CprField) : Effect s .rfCprload (setPresent 0 (setCprEven x y s))
  | cprOdd (x y : CprField) : Effect s .rfCprload (setPresent 1 (setCprOdd x y s))

theorem Effect.ofAccessor {s t : State} {i : Instr} {v : DWord} (hi : i ≠ .nop)
    (h : needFrame s (setPresent v s) = .next t) : Effect s i t := by
  obtain ⟨-, rfl⟩ | ⟨-, rfl⟩ := needFrame_cases h
  · exact .present _ hi _
  · exact .fault _ _ (by decide)

/-- Inversion of `exec`: a command that answers a next state has one of the effects listed. -/
theorem exec_effect {i : Instr} {s t : State} (h : exec i s = .next t) : Effect s i t := by
  cases i with
  | nop => cases h; exact .nop
  | bvExtract a b =>
    obtain rfl | ⟨v, rfl⟩ := execBvExtract_cases h
    · exact .fault _ _ (by decide)
    · exact .present _ (by simp) _
  | bvTestbit a =>
    obtain rfl | ⟨v, rfl⟩ := execBvTestbit_cases h
    · exact .fault _ _ (by decide)
    · exact .present _ (by simp) _
  | bsLength => cases h; exact .present _ (by simp) _
  | bsByteat a =>
    obtain rfl | ⟨v, rfl⟩ := execBsByteat_cases h
    · exact .fault _ _ (by decide)
    · exact .present _ (by simp) _
  | bsRange a b =>
    obtain rfl | rfl | ⟨v, rfl⟩ := execBsRange_cases h
    · exact .fault _ _ (by decide)
    · exact .fault _ _ (by decide)
    · exact .present _ (by simp) _
  | crcTable a => cases h; exact .present _ (by simp) _
  | crcCompute => cases h; exact .present _ (by simp) _
  | rfOf =>
    obtain rfl | rfl | rfl | ⟨f, hc, ht, rfl⟩ := execRfOf_cases h
    · exact .fault _ _ (by decide)
    · exact .fault _ _ (by decide)
    · exact .frameDropped
    · exact .frameBuilt f hc ht
  | rfDf => exact .ofAccessor (by simp) h
  | rfIcao => exact .ofAccessor (by simp) h
  | rfMe => exact .ofAccessor (by simp) h
  | rfTc => exact .ofAccessor (by simp) h
  | rfClass =>
    obtain rfl | rfl | ⟨v, rfl⟩ := execRfClass_cases h
    · exact .fault _ _ (by decide)
    · exact .absent _ (by simp)
    · exact .present _ (by simp) _
  | rfCprload =>
    obtain rfl | rfl | ⟨x, y, rfl⟩ | ⟨x, y, rfl⟩ := execRfCprload_cases h
    · exact .fault _ _ (by decide)
    · exact .absent _ (by simp)
    · exact .cprOdd x y
    · exact .cprEven x y
  | cprDecode a =>
    obtain rfl | ⟨v, rfl⟩ := execCprDecode_cases h
    · exact .absent _ (by simp)
    · exact .present _ (by simp) _
  | fifoPop =>
    obtain ⟨-, rfl⟩ | ⟨e, rest, v, hq, rfl⟩ := execFifoPop_cases h
    · exact .fault _ _ (by decide)
    · exact .framePopped e rest v hq

end Sys2Proof.Machine
end

