-- ==== Sys2Proof/Laws/PerInstr.lean ====
section
/-!
SUPPORT. The family TableRow: a well-formed command's word matches its row of spec/opcode_table.json.
-/

namespace Sys2Proof.Laws.TableRow

/-- The word of a well-formed command matches its row (30_encoding.md R82, R84). -/
def Statement (i : Instr) : Prop :=
  WellFormed i → encode i &&& (tableRow i).2 = (tableRow i).1

/-- A mask put together from four bytes masks each field of a command word by its byte. -/
theorem commandWord_and {op a b m3 m2 m1 m0 : Byte} {mask pattern : Word}
    (hm : (m3 ++ m2 ++ m1 ++ m0 : Word) = mask)
    (hp : (0#8 &&& m3) ++ (b &&& m2) ++ (a &&& m1) ++ (op &&& m0) = pattern) :
    commandWord op a b &&& mask = pattern := by
  have h : ∀ {v w} (x₁ y₁ : BitVec v) (x₂ y₂ : BitVec w),
      (x₁ ++ x₂) &&& (y₁ ++ y₂) = (x₁ &&& y₁) ++ (x₂ &&& y₂) := by
    intros
    exact BitVec.and_append
  rw [← hm, ← hp]
  exact (h ..).trans (by rw [h, h])

theorem nop : Statement .nop := fun _ => by decide

theorem bvExtract (start size : Byte) : Statement (.bvExtract start size) := fun _ =>
  commandWord_and (m3 := 0xFF) (m2 := 0) (m1 := 0) (m0 := 0xFF) (by rfl) (by simp [tableRow])

theorem bvTestbit (index : Byte) : Statement (.bvTestbit index) := fun _ =>
  commandWord_and (m3 := 0xFF) (m2 := 0xFF) (m1 := 0) (m0 := 0xFF) (by rfl) (by simp [tableRow])

theorem bsLength : Statement .bsLength := fun _ => by decide

theorem bsByteat (index : Byte) : Statement (.bsByteat index) := fun _ =>
  commandWord_and (m3 := 0xFF) (m2 := 0xFF) (m1 := 0) (m0 := 0xFF) (by rfl) (by simp [tableRow])

theorem bsRange (lo hi : Byte) : Statement (.bsRange lo hi) := fun _ =>
  commandWord_and (m3 := 0xFF) (m2 := 0) (m1 := 0) (m0 := 0xFF) (by rfl) (by simp [tableRow])

theorem crcTable (entry : Byte) : Statement (.crcTable entry) := fun _ =>
  commandWord_and (m3 := 0xFF) (m2 := 0xFF) (m1 := 0) (m0 := 0xFF) (by rfl) (by simp [tableRow])

theorem crcCompute : Statement .crcCompute := fun _ => by decide

theorem rfOf : Statement .rfOf := fun _ => by decide

theorem rfDf : Statement .rfDf := fun _ => by decide

theorem rfIcao : Statement .rfIcao := fun _ => by decide

theorem rfMe : Statement .rfMe := fun _ => by decide

theorem rfTc : Statement .rfTc := fun _ => by decide

theorem rfClass : Statement .rfClass := fun _ => by decide

theorem rfCprload : Statement .rfCprload := fun _ => by decide

theorem cprDecode (a : Byte) : Statement (.cprDecode a) := fun wf => by
  have hlt : a.toNat < 2 := of_decide_eq_true wf
  have ha : a = 0 ∨ a = 1 := by
    have : a.toNat = 0 ∨ a.toNat = 1 := by omega
    rcases this with h | h
    · exact Or.inl (BitVec.eq_of_toNat_eq h)
    · exact Or.inr (BitVec.eq_of_toNat_eq h)
  rcases ha with rfl | rfl <;> decide

theorem fifoPop : Statement .fifoPop := fun _ => by decide

end Sys2Proof.Laws.TableRow
end

