-- ==== Sys2Proof/Laws/Steps.lean ====
section
/-!
SUPPORT. What a step can do, said once per shared operation: the bus, the Source, the FIR, the Demodulator, the step.
-/

namespace Sys2Proof.Machine

/-- Recording a fault gives the state of a faulted run, whatever was recorded before. -/
theorem raiseFault_raiseFault (c d : FaultCause) (v w : Word) (s : State) :
    raiseFault c v (raiseFault d w s) = raiseFault c v s := rfl

/-- A soft reset after a soft reset changes nothing. -/
@[simp] theorem softReset_softReset (s : State) : softReset (softReset s) = softReset s := rfl

/-- A write of CTRL resets or stores DEMOD_EN. -/
theorem writeCtrl_cases (v : Word) (s : State) :
    (v.getLsbD 1 = true ∧ writeCtrl v s = softReset s) ∨
      (v.getLsbD 1 = false ∧ writeCtrl v s = { s with demodEn := v.getLsbD 0 }) := by
  unfold writeCtrl
  split <;> simp_all

/-- A write of BLEN stores a length or faults. -/
theorem writeBlen_cases (v : Word) (s : State) :
    (∃ n : Fin 17, n.val = v.toNat ∧ writeBlen v s = { s with blen := n }) ∨
      (16 < v.toNat ∧ writeBlen v s = raiseFault .blenRange (busInfo true .b4 0x28) s) := by
  unfold writeBlen
  split
  · exact .inl ⟨⟨v.toNat, _⟩, rfl, rfl⟩
  · exact .inr ⟨by omega, rfl⟩

/-- A write of CMD stores the word and runs its command, or faults ILLEGAL_CMD. -/
theorem runCommand_cases {w : Word} {s t : State} (h : runCommand w s = .next t) :
    (∃ i, decode w = .ok i ∧ exec i { s with cmd := w } = .next t) ∨
      ((∃ e, decode w = .error e) ∧ t = raiseFault .illegalCmd w { s with cmd := w }) := by
  unfold runCommand at h
  split at h
  · exact .inl ⟨_, by assumption, h⟩
  · cases h; exact .inr ⟨⟨_, by assumption⟩, rfl⟩

/-- What a write of a register that only stores its value changes. -/
def SameButOperands (s t : State) : Prop :=
  t = { s with
    opa := t.opa
    ts := t.ts
    blen := t.blen
    bbuf := t.bbuf
    cprX0 := t.cprX0
    cprY0 := t.cprY0
    cprX1 := t.cprX1
    cprY1 := t.cprY1 }

/-- Everything a 4-byte write of register `r` can do. -/
theorem writeReg_cases {r : Reg} {addr : Byte} {v : Word} {s t : State} (h : writeReg r addr v s = .next t) :
    (r = .ctrl ∧ t = writeCtrl v s) ∨ (r = .cmd ∧ runCommand v s = .next t) ∨
      (r ≠ .ctrl ∧ SameButOperands s t) ∨
      (r = .blen ∧ t = raiseFault .blenRange (busInfo true .b4 0x28) s) ∨
      (r ≠ .ctrl ∧ t = raiseFault .badReg (busInfo true .b4 addr) s) := by
  cases r
  case ctrl => cases h; exact .inl ⟨rfl, rfl⟩
  case cmd => exact .inr (.inl ⟨rfl, h⟩)
  case blen =>
    cases h
    obtain ⟨n, -, h⟩ | ⟨-, h⟩ := writeBlen_cases v s
    · exact .inr (.inr (.inl ⟨by decide, by rw [h]; rfl⟩))
    · exact .inr (.inr (.inr (.inl ⟨rfl, h⟩)))
  case status | faultInfo | resLo | resHi | frTsLo | frTsHi | frW0 | frW1 | frW2 | frW3 | posLo | posHi =>
    simp only [writeReg, badWrite, Host.Outcome.next.injEq] at h
    exact .inr (.inr (.inr (.inr ⟨by decide, h.symm⟩)))
  all_goals
    simp only [writeReg, Host.Outcome.next.injEq] at h
    subst h
    exact .inr (.inr (.inl ⟨by decide, by simp only [SameButOperands, setBbufWord]⟩))

/-- Everything a host read can do. -/
theorem busRead_cases {size : AccessSize} {addr : Byte} {s t : State} (h : busRead size addr s = .next t) :
    (∃ r, accessReg size addr = some r ∧ t = returnData (readReg r s) s) ∨
      (accessReg size addr = none ∧ s.fault = true ∧ t = returnData 0 s) ∨
      (accessReg size addr = none ∧ s.fault = false ∧
        t = returnData 0 (raiseFault .badReg (busInfo false size addr) s)) := by
  unfold busRead at h
  split at h
  · cases h; exact .inl ⟨_, by assumption, rfl⟩
  · split at h <;> cases h
    · exact .inr (.inl ⟨by assumption, by assumption, rfl⟩)
    · exact .inr (.inr ⟨by assumption, by simp_all, rfl⟩)

/-- Everything a host write can do: nothing while faulted, the write of a register, or BAD_REG. -/
theorem busWrite_cases {size : AccessSize} {addr : Byte} {v : Word} {s t : State}
    (h : busWrite size addr v s = .next t) :
    (s.fault = true ∧ ¬ (addr = 0x00 ∧ size = .b4) ∧ t = s) ∨
      ((s.fault = false ∨ (addr = 0x00 ∧ size = .b4)) ∧
        ((∃ r, accessReg size addr = some r ∧ writeReg r addr v s = .next t) ∨
          (accessReg size addr = none ∧ t = raiseFault .badReg (busInfo true size addr) s))) := by
  unfold busWrite at h
  split at h
  next hf => cases h; simp only [Bool.and_eq_true, Bool.not_eq_true', decide_eq_false_iff_not] at hf; exact .inl ⟨hf.1, hf.2, rfl⟩
  next hf =>
    refine .inr ⟨?_, ?_⟩
    · cases hs : s.fault
      · exact .inl rfl
      · simp only [hs, Bool.true_and, Bool.not_eq_true', decide_eq_false_iff_not, Decidable.not_not] at hf
        exact .inr hf
    · split at h
      · exact .inl ⟨_, by assumption, h⟩
      · cases h; exact .inr ⟨by assumption, rfl⟩

/-- A legal access has size 4, an offset that is a multiple of 4, and a register there. -/
theorem accessReg_some {size : AccessSize} {addr : Byte} {r : Reg} (h : accessReg size addr = some r) :
    size = .b4 ∧ addr.toNat % 4 = 0 ∧ regAt addr = some r := by
  unfold accessReg at h
  split at h
  · exact ⟨by simp_all, by simp_all, h⟩
  · cases h

/-- A sample waits as the first of its pair, or completes it and gives one power sample. -/
theorem firSample_cases (x : Int) (s : State) :
    (s.half = none ∧ firSample x s = { s with half := some x }) ∨
      ∃ h, s.half = some h ∧ firSample x s = { s with
        hist := shiftHist s.hist h x
        half := none
        power := s.power ++ [firPower (shiftHist s.hist h x)] } := by
  unfold firSample
  split
  · exact .inl ⟨by assumption, rfl⟩
  · exact .inr ⟨_, by assumption, rfl⟩

/-- A byte waits as the low byte, or completes a sample. -/
theorem sourceByte_cases (b : Byte) (s : State) :
    (s.lowByte = none ∧ sourceByte b s = { s with lowByte := some b }) ∨
      ∃ lo, s.lowByte = some lo ∧ sourceByte b s =
        firSample (sampleOf lo b) { s with lowByte := none, nSamples := s.nSamples + 1 } := by
  unfold sourceByte
  split
  · exact .inl ⟨by assumption, rfl⟩
  · exact .inr ⟨_, by assumption, rfl⟩

/-- The Source's turn: no step, end of stream, or one byte. -/
theorem sourceTurn_cases (s : State) :
    (sourceEnabled (nextItem s) s = false ∧ sourceTurn s = takeTurn s) ∨
      (nextItem s = .endOfStream ∧ s.fault = false ∧ s.eos = false ∧
        sourceTurn s = endStream (takeItem (takeTurn s))) ∨
      ∃ b, nextItem s = .byte b ∧ s.fault = false ∧ s.eos = false ∧ bufferHasRoom s = true ∧
        sourceTurn s = sourceByte b (takeItem (takeTurn s)) := by
  unfold sourceTurn
  cases he : sourceEnabled (nextItem s) s
  · exact .inl ⟨rfl, by simp [he]⟩
  · cases hi : nextItem s with
    | byte b =>
      simp only [hi, sourceEnabled, Bool.and_eq_true, Bool.not_eq_true'] at he
      exact .inr (.inr ⟨b, rfl, he.1.1, he.1.2, he.2, by simp [sourceEnabled, sourceItem, he]⟩)
    | endOfStream =>
      simp only [hi, sourceEnabled, Bool.and_eq_true, Bool.not_eq_true'] at he
      exact .inr (.inl ⟨rfl, he.1.1, he.1.2, by simp [sourceEnabled, sourceItem, he]⟩)

/-- The evaluation of a window: a timestamp fault, an accepted frame, or the next position. -/
theorem evalWindow_cases (s : State) :
    (s.pos.toNat * 100 > 2 ^ 63 - 1 ∧ evalWindow s = raiseFault .tsOverflow 0 s) ∨
      (s.pos.toNat * 100 ≤ 2 ^ 63 - 1 ∧ accept s.power s.pos.toNat = true ∧
        evalWindow s = setPos (s.pos + 1200) (pushFrame (frameAt s.power s.pos.toNat) s)) ∨
      (s.pos.toNat * 100 ≤ 2 ^ 63 - 1 ∧ accept s.power s.pos.toNat = false ∧
        evalWindow s = setPos (s.pos + 1) s) := by
  unfold evalWindow Config.samplePeriodNs
  split
  · exact .inl ⟨by assumption, rfl⟩
  · cases ha : accept s.power s.pos.toNat
    · exact .inr (.inr ⟨by omega, rfl, rfl⟩)
    · exact .inr (.inl ⟨by omega, rfl, rfl⟩)

/-- The Demodulator's turn: no step, the end of the stream, or the evaluation of a full window. -/
theorem demodTurn_cases (s : State) :
    (demodEnabled s = false ∧ demodTurn s = takeTurn s) ∨
      (demodEnabled s = true ∧ windowFull s = false ∧ s.eos = true ∧
        demodTurn s = { takeTurn s with done := true }) ∨
      (demodEnabled s = true ∧ windowFull s = true ∧ s.fifo.length < Config.fifoDepth ∧
        demodTurn s = evalWindow (takeTurn s)) := by
  have hw : windowFull (takeTurn s) = windowFull s := rfl
  unfold demodTurn
  cases he : demodEnabled s
  · exact .inl ⟨rfl, rfl⟩
  · cases hf : windowFull s
    · refine .inr (.inl ⟨rfl, rfl, ?_, by simp [demodStep, hw, hf]⟩)
      simp only [demodEnabled, hf] at he
      simp_all
    · refine .inr (.inr ⟨rfl, rfl, ?_, by simp [demodStep, hw, hf]⟩)
      simp only [demodEnabled, hf] at he
      simp_all

/-- Everything a step can do, by the agent whose turn it is. -/
theorem step_cases {s t : State} (h : step s = .next t) :
    (∃ size addr, nextAgent s = .host ∧ nextAccess s = .read size addr ∧
      busRead size addr (takeAccess (takeTurn s)) = .next t) ∨
    (∃ size addr v, nextAgent s = .host ∧ nextAccess s = .write size addr v ∧
      busWrite size addr v (takeAccess (takeTurn s)) = .next t) ∨
    (nextAgent s = .source ∧ t = sourceTurn s) ∨
    (nextAgent s = .demodulator ∧ t = demodTurn s) := by
  unfold step at h
  split at h
  · unfold hostTurn hostAccess at h
    split at h
    · exact .inl ⟨_, _, by assumption, by assumption, h⟩
    · exact .inr (.inl ⟨_, _, _, by assumption, by assumption, h⟩)
  · cases h; exact .inr (.inr (.inl ⟨by assumption, rfl⟩))
  · cases h; exact .inr (.inr (.inr ⟨by assumption, rfl⟩))

end Sys2Proof.Machine
end

