-- ==== Sys2Proof/Laws/Runs.lean ====
section
/-!
SUPPORT. What a step of each agent can do, in the terms of Safety: the forms from which the whole-machine rules follow.
-/

namespace Sys2Proof.Machine

/-- The offset of a register (10_state.md R22). -/
def Reg.offset : Reg → Byte
  | .ctrl => 0x00
  | .status => 0x04
  | .cmd => 0x08
  | .faultInfo => 0x0C
  | .opaLo => 0x10
  | .opaHi => 0x14
  | .resLo => 0x18
  | .resHi => 0x1C
  | .tsLo => 0x20
  | .tsHi => 0x24
  | .blen => 0x28
  | .bbuf0 => 0x30
  | .bbuf1 => 0x34
  | .bbuf2 => 0x38
  | .bbuf3 => 0x3C
  | .cprX0 => 0x40
  | .cprY0 => 0x44
  | .cprX1 => 0x48
  | .cprY1 => 0x4C
  | .frTsLo => 0x50
  | .frTsHi => 0x54
  | .frW0 => 0x58
  | .frW1 => 0x5C
  | .frW2 => 0x60
  | .frW3 => 0x64
  | .posLo => 0x68
  | .posHi => 0x6C

/-- The register map is one-to-one: a register is found at its offset and nowhere else. -/
theorem regAt_eq_some {addr : Byte} {r : Reg} : regAt addr = some r ↔ addr = r.offset := by
  have h : ∀ n : Fin 256, ∀ q ∈ regAt (BitVec.ofFin n), BitVec.ofFin n = q.offset := by
    decide +kernel
  constructor
  · exact fun hr => h addr.toFin r hr
  · rintro rfl
    cases r <;> rfl

/-- Every offset of a register is a multiple of 4. -/
theorem Reg.offset_aligned (r : Reg) : r.offset.toNat % 4 = 0 := by
  cases r <;> rfl

/-- A 4-byte access reaches exactly the register at its offset. -/
theorem accessReg_eq_some {size : AccessSize} {addr : Byte} {r : Reg} :
    accessReg size addr = some r ↔ size = .b4 ∧ addr = r.offset := by
  constructor
  · intro h
    obtain ⟨hs, -, hr⟩ := accessReg_some h
    exact ⟨hs, regAt_eq_some.mp hr⟩
  · rintro ⟨rfl, rfl⟩
    simp [accessReg, Reg.offset_aligned, regAt_eq_some]

/-- Everything a host's step can do, with the condition under which it does it. -/
inductive HostEffect (s : State) : State → Prop where
  | read (v : Word) : HostEffect s (returnData v (takeAccess (takeTurn s)))
  | badRead (info : Word) (hf : s.fault = false) :
      HostEffect s (returnData 0 (raiseFault .badReg info (takeAccess (takeTurn s))))
  | ignored (hf : s.fault = true) : HostEffect s (takeAccess (takeTurn s))
  | badWrite (info : Word) (hf : s.fault = false) :
      HostEffect s (raiseFault .badReg info (takeAccess (takeTurn s)))
  | reset (hr : softResetNext s = true) : HostEffect s (softReset (takeAccess (takeTurn s)))
  | enable (v : Word) (ha : nextAccess s = .write .b4 0x00 v) (hv : v.getLsbD 1 = false) :
      HostEffect s { takeAccess (takeTurn s) with demodEn := v.getLsbD 0 }
  | illegal (w : Word) (ha : nextAccess s = .write .b4 0x08 w) (hf : s.fault = false) :
      HostEffect s (raiseFault .illegalCmd w { takeAccess (takeTurn s) with cmd := w })
  | command (w : Word) (i : Instr) (t : State) (ha : nextAccess s = .write .b4 0x08 w) (hf : s.fault = false)
      (hd : decode w = .ok i) (he : Effect { takeAccess (takeTurn s) with cmd := w } i t) : HostEffect s t
  | operand (t : State) (hf : s.fault = false) (h : SameButOperands (takeAccess (takeTurn s)) t) : HostEffect s t
  | badLength (info : Word) (hf : s.fault = false) :
      HostEffect s (raiseFault .blenRange info (takeAccess (takeTurn s)))

/-- Inversion of the host's step. -/
theorem host_effect {s t : State} (ha : nextAgent s = .host) (h : step s = .next t) : HostEffect s t := by
  obtain ⟨size, addr, -, hacc, hb⟩ | ⟨size, addr, v, -, hacc, hb⟩ | ⟨ha', -⟩ | ⟨ha', -⟩ := step_cases h
  · obtain ⟨r, -, rfl⟩ | ⟨-, -, rfl⟩ | ⟨-, hf, rfl⟩ := busRead_cases hb
    · exact .read _
    · exact .read _
    · exact .badRead _ hf
  · obtain ⟨hf, -, rfl⟩ | ⟨hf, ⟨r, hreg, hw⟩ | ⟨hreg, rfl⟩⟩ := busWrite_cases hb
    · exact .ignored hf
    · obtain ⟨rfl, rfl⟩ := accessReg_eq_some.mp hreg
      have hnf : r ≠ .ctrl → s.fault = false := by
        intro hr
        refine hf.resolve_right fun h0 => ?_
        have h1 := h0.1
        revert hr h1
        cases r <;> decide
      obtain ⟨rfl, rfl⟩ | ⟨rfl, hrun⟩ | ⟨hr, hsame⟩ | ⟨rfl, rfl⟩ | ⟨hr, rfl⟩ := writeReg_cases hw
      · obtain ⟨hv, hc⟩ | ⟨hv, hc⟩ := writeCtrl_cases v (takeAccess (takeTurn s))
        · rw [hc]
          exact .reset (by simp [softResetNext, ha, hacc, hv, Reg.offset])
        · rw [hc]
          exact .enable v hacc hv
      · obtain ⟨i, hd, he⟩ | ⟨-, rfl⟩ := runCommand_cases hrun
        · exact .command v i t hacc (hnf (by decide)) hd (exec_effect he)
        · exact .illegal v hacc (hnf (by decide))
      · exact .operand t (hnf hr) hsame
      · exact .badLength _ (hnf (by decide))
      · exact .badWrite _ (hnf hr)
    · rcases hf with hf | ⟨rfl, rfl⟩
      · exact .badWrite _ hf
      · exact absurd hreg (by decide)
  · exact absurd (ha.symm.trans ha') (by decide)
  · exact absurd (ha.symm.trans ha') (by decide)

/-- The step of the Source is its turn. -/
theorem step_source {s : State} (ha : nextAgent s = .source) : step s = .next (sourceTurn s) := by
  simp [step, ha]

/-- The step of the Demodulator is its turn. -/
theorem step_demodulator {s : State} (ha : nextAgent s = .demodulator) : step s = .next (demodTurn s) := by
  simp [step, ha]

/-- The step of the host is its access. -/
theorem step_host {s : State} (ha : nextAgent s = .host) :
    step s = hostAccess (nextAccess s) (takeAccess (takeTurn s)) := by
  simp [step, ha, hostTurn]

/-- Only the host performs a soft reset. -/
theorem softResetNext_host {s : State} (h : softResetNext s = true) : nextAgent s = .host := by
  unfold softResetNext at h
  split at h
  · assumption
  · cases h

/-- A soft reset's step gives the reset block. -/
theorem step_softReset {s t : State} (hr : softResetNext s = true) (h : step s = .next t) :
    t = softReset (takeAccess (takeTurn s)) := by
  have ha := softResetNext_host hr
  rw [step_host ha] at h
  unfold softResetNext at hr
  split at hr
  next size addr v _ hacc =>
    simp only [Bool.and_eq_true, decide_eq_true_eq] at hr
    obtain ⟨⟨rfl, rfl⟩, hv⟩ := hr
    simp only [hacc, hostAccess, busWrite, accessReg, writeReg, writeCtrl, hv] at h
    simpa [regAt, eq_comm] using h
  · cases hr

/-- A byte of the stream, whichever of its three cases it is: what it leaves alone. -/
theorem sourceByte_same (b : Byte) (s : State) :
    sourceByte b s = { s with
      lowByte := (sourceByte b s).lowByte
      nSamples := (sourceByte b s).nSamples
      half := (sourceByte b s).half
      hist := (sourceByte b s).hist
      power := (sourceByte b s).power } := by
  obtain ⟨-, h⟩ | ⟨lo, -, h⟩ := sourceByte_cases b s
  · simp [h]
  · obtain ⟨-, h'⟩ | ⟨x, -, h'⟩ := firSample_cases (sampleOf lo b)
      { s with lowByte := none, nSamples := s.nSamples + 1 } <;> simp [h, h']

/-- A stream run goes on by one byte, at the Source's turn with room in the buffer. -/
theorem StreamRun.byte {bytes : List Byte} {fs : List Frame} {s : State} {b : Byte} {ts : List Agent}
    {xs : List SourceItem} (run : StreamRun bytes fs s) (ht : s.turns = .source :: ts) (hx : s.stream = .byte b :: xs)
    (hf : s.fault = false) (he : s.eos = false) (hr : bufferHasRoom s = true) :
    StreamRun (bytes ++ [b]) fs (sourceByte b { s with moves := s.moves + 1, turns := ts, stream := xs }) := by
  have ha : nextAgent s = .source := by simp [nextAgent, ht]
  have hi : nextItem s = .byte b := by simp [nextItem, hx]
  have hen : sourceEnabled (.byte b) s = true := by simp [sourceEnabled, hf, he, hr]
  have h := StreamRun.step run (by simp [softResetNext, ha]) (step_source ha)
  have hd : deliveredNext s = [b] := by simp [deliveredNext, ha, hi, hen]
  have hn : appendedNext s = [] := by simp [appendedNext, ha]
  have ht' : sourceTurn s = sourceByte b { s with moves := s.moves + 1, turns := ts, stream := xs } := by
    simp [sourceTurn, hi, hen, sourceItem, takeItem, takeTurn, ht, hx]
  rwa [hd, hn, List.append_nil, ht'] at h

end Sys2Proof.Machine
end

