-- ==== Sys2Proof/Tests/Slice0.lean ====
section
/-!
SUPPORT. The model's own tests: expected results are those of 95_test_vectors.md and of the rules' examples. Then one
witness for each statement that has hypotheses.
-/

namespace Sys2Proof.Tests

open Sys2Proof.Machine Sys2Proof.Claims

/-! Well-formedness: A[7:1] of CPR_DECODE must be 0 (30_encoding.md R82), the one check there is -/

theorem test_wellFormed_refuses_cprDecode_2 : ¬ WellFormed (.cprDecode 2) := by decide
theorem test_wellFormed_refuses_cprDecode_255 : ¬ WellFormed (.cprDecode 255) := by decide
theorem test_wellFormed_takes_cprDecode_1 : WellFormed (.cprDecode 1) := by decide

/-! Decoding: the words of 30_encoding.md R84, and the words of 95_test_vectors.md -/

theorem test_decode_nop : decode 0x00000000 = .ok .nop := by decide
theorem test_decode_bvExtract : decode 0x00080401 = .ok (.bvExtract 4 8) := by decide
theorem test_decode_bvTestbit : decode 0x00003802 = .ok (.bvTestbit 56) := by decide
theorem test_decode_bsLength : decode 0x00000008 = .ok .bsLength := by decide
theorem test_decode_bsByteat : decode 0x00000D09 = .ok (.bsByteat 13) := by decide
theorem test_decode_bsRange : decode 0x000B040A = .ok (.bsRange 4 11) := by decide
theorem test_decode_crcTable : decode 0x00000110 = .ok (.crcTable 1) := by decide
theorem test_decode_crcCompute : decode 0x00000011 = .ok .crcCompute := by decide
theorem test_decode_rfOf : decode 0x00000020 = .ok .rfOf := by decide
theorem test_decode_rfDf : decode 0x00000021 = .ok .rfDf := by decide
theorem test_decode_rfIcao : decode 0x00000022 = .ok .rfIcao := by decide
theorem test_decode_rfMe : decode 0x00000023 = .ok .rfMe := by decide
theorem test_decode_rfTc : decode 0x00000024 = .ok .rfTc := by decide
theorem test_decode_rfClass : decode 0x00000025 = .ok .rfClass := by decide
theorem test_decode_rfCprload : decode 0x00000026 = .ok .rfCprload := by decide
theorem test_decode_cprDecode : decode 0x00000130 = .ok (.cprDecode 1) := by decide
theorem test_decode_fifoPop : decode 0x00000040 = .ok .fifoPop := by decide
theorem test_decode_unlisted : decode 0x00000003 = .error .unlistedOpcode := by decide
theorem test_decode_nop_with_a : decode 0x00000100 = .error .mustBeZero := by decide
theorem test_decode_bsLength_with_rsv : decode 0x01000008 = .error .mustBeZero := by decide
theorem test_decode_cprDecode_with_a_2 : decode 0x00000230 = .error .mustBeZero := by decide
theorem test_encode_bsRange : encode (.bsRange 4 11) = 0x000B040A := by decide
theorem test_decodeTableWord_short : decodeTableWord 8 0x10 = some (.crcTable 0) := by decide

/-! Small states and views -/

/-- What a command leaves: STATUS, FAULT_INFO and RES. -/
def seen : Result → Option (Word × Word × DWord)
  | .next t => some (statusWord t, t.faultInfo, t.res)
  | _ => none

/-- The value a step leaves as read data. -/
def dataOf : Result → Option Word
  | .next t => t.readData
  | _ => none

/-- Frame F1 of 95_test_vectors.md section 2.1. -/
def frame1 : Vector Byte 14 :=
  #v[0x8D, 0x48, 0x40, 0xD6, 0x20, 0x2C, 0xC3, 0x71, 0xC3, 0x2C, 0xE0, 0x57, 0x60, 0x98]

/-- Frame 2 of 95_test_vectors.md section 2.4. -/
def frame2 : Vector Byte 14 :=
  #v[0x8D, 0x40, 0x62, 0x1D, 0x58, 0xC3, 0x82, 0xD6, 0x90, 0xC8, 0xAC, 0x28, 0x63, 0xA7]

/-- Frame 3 of 95_test_vectors.md section 2.4. -/
def frame3 : Vector Byte 14 :=
  #v[0x8D, 0x40, 0x62, 0x1D, 0x58, 0xC3, 0x86, 0x43, 0x5C, 0xC4, 0x12, 0x69, 0x2A, 0xD6]

/-- Reset with F1 in the byte buffer. -/
def withBuf : State :=
  { State.reset with
    blen := 14
    ts := 12345
    bbuf := #v[0x8D, 0x48, 0x40, 0xD6, 0x20, 0x2C, 0xC3, 0x71, 0xC3, 0x2C, 0xE0, 0x57, 0x60, 0x98, 0, 0] }

/-- Reset with a frame in FR. -/
def withFr (f : Vector Byte 14) : State :=
  { State.reset with fr := { ts := 12345, bytes := f }, frValid := true }

/-- Reset with OPA = V of 95_test_vectors.md section 2.1. -/
def withOpa : State := { State.reset with opa := 0x0123456789ABCDEF }

/-- Reset with a fault recorded, as after `WR BLEN, 17`. -/
def withFault : State := raiseFault .blenRange 0xC0000428 State.reset

/-- Reset with a host access placed. -/
def withAccess (a : Access) (s : State) : State := { s with turns := [.host], accesses := [a] }

/-- The bytes of a pair of samples: the first is the value `e`, the second is 0 (42_demod.md R150). -/
def blockBytes (e : Byte) : List Byte := [e, 8, 0, 8]

/-- The power samples of a stream of such pairs, from a FIR history. -/
def pairPowers : List Byte → Vector Int 8 → List Nat
  | [], _ => []
  | e :: es, h => firPower (shiftHist h (sampleOf e 8) (sampleOf 0 8)) :: pairPowers es (shiftHist h (sampleOf e 8) (sampleOf 0 8))

/-- A run of pairs of zero samples. -/
def gap (n : Nat) : List Byte := List.replicate n 0

/-- The pairs of a stream that holds F1 at position 0: two samples of 1 give power 1 at their position and 4 later,
preamble pulses stand at 0, 10, 35 and 45, bit i's pulse at 80 + 10 i for 1 and at 85 + 10 i for 0 (42_demod.md R164,
R165). -/
def frameBlocks : List Byte :=
  [1, 1] ++ gap 8 ++ [1, 1] ++ gap 23 ++ [1, 1] ++ gap 8 ++ [1, 1] ++ gap 33 ++
    (frame1.toList.flatMap byteBits).flatMap fun b => if b then [1, 1] ++ gap 8 else gap 5 ++ [1, 1] ++ gap 3

/-- Their power stream. -/
def framePowers : List Nat := pairPowers frameBlocks (Vector.replicate 8 0)

theorem pairPowers_length (es : List Byte) (h : Vector Int 8) : (pairPowers es h).length = es.length := by
  induction es generalizing h with
  | nil => rfl
  | cons e es ih => simp [pairPowers, ih]

theorem frameBlocks_length : frameBlocks.length = 1200 := by decide +kernel

theorem framePowers_length : framePowers.length = 1200 := (pairPowers_length _ _).trans frameBlocks_length

theorem framePowers_bytes : frameBytes framePowers 0 = frame1 := by decide +kernel

theorem framePowers_accepted : accept framePowers 0 = true := by
  have hc : candidate framePowers 0 = true := by decide +kernel
  have hf : crc frame1.toList = 0 := by decide
  simp [accept, hc, framePowers_bytes, hf]

/-- A state whose window at 0 holds F1. -/
def withWindow : State :=
  { State.reset with demodEn := true, power := framePowers, turns := [.demodulator] }

/-! BitView: 95_test_vectors.md section 2.1 -/

theorem test_bvExtract_top : seen (exec (.bvExtract 33 31) withOpa) = some (0x2, 0, 0x0091A2B3) := by decide
theorem test_bvExtract_past_64 :
    seen (exec (.bvExtract 34 31) { withOpa with cmd := 0x001F2201 }) = some (0x201, 0x001F2201, 0) := by decide
theorem test_bvTestbit_56 : seen (exec (.bvTestbit 56) withOpa) = some (0x2, 0, 1) := by decide
theorem test_bvTestbit_64 : seen (exec (.bvTestbit 64) withOpa) = some (0x301, 0, 0) := by decide
theorem test_bsLength : seen (exec .bsLength withBuf) = some (0x2, 0, 14) := by decide
theorem test_bsByteat_13 : seen (exec (.bsByteat 13) withBuf) = some (0x2, 0, 0x98) := by decide
theorem test_bsByteat_14 : seen (exec (.bsByteat 14) withBuf) = some (0x401, 0, 0) := by decide
theorem test_bsRange_span_8 : seen (exec (.bsRange 6 14) withBuf) = some (0x2, 0, 0xC371C32CE0576098) := by decide
theorem test_bsRange_bounds_first : seen (exec (.bsRange 10 15) withBuf) = some (0x401, 0, 0) := by decide

/-! CRC24: 95_test_vectors.md section 2.2 -/

theorem test_crcTable_80 : seen (exec (.crcTable 0x80) State.reset) = some (0x2, 0, 0x0706C0) := by decide
theorem test_crcTable_FF : seen (exec (.crcTable 0xFF) State.reset) = some (0x2, 0, 0xFA0480) := by decide
theorem test_crcCompute_11 : seen (exec .crcCompute { withBuf with blen := 11 }) = some (0x2, 0, 0x576098) := by decide
theorem test_crcCompute_empty : seen (exec .crcCompute State.reset) = some (0x2, 0, 0) := by decide
theorem test_crc_ones : crc (List.replicate 14 0xFF) = 0xE48114 := by decide
theorem test_crcBitwise_123 : crcBitwise [1, 2, 3] = 0xEE2753 := by decide +kernel

/-! RawFrame: 95_test_vectors.md section 2.4 -/

theorem test_rfOf_accepts : seen (exec .rfOf withBuf) = some (0x6, 0, 0) := by decide
theorem test_rfOf_rejects_a_flipped_bit :
    seen (exec .rfOf { withBuf with bbuf := withBuf.bbuf.set 13 0x99, frValid := true }) = some (0x0, 0, 0) := by decide
theorem test_rfOf_length_before_timestamp :
    seen (exec .rfOf { withBuf with blen := 13, ts := 0x8000000000000000 }) = some (0x601, 0, 0) := by decide
theorem test_rfDf : seen (exec .rfDf (withFr frame1)) = some (0x6, 0, 17) := by decide
theorem test_rfDf_without_frame : seen (exec .rfDf State.reset) = some (0x801, 0, 0) := by decide
theorem test_rfIcao : seen (exec .rfIcao (withFr frame1)) = some (0x6, 0, 0x4840D6) := by decide
theorem test_rfMe : seen (exec .rfMe (withFr frame1)) = some (0x6, 0, 0x00202CC371C32CE0) := by decide
theorem test_rfTc : seen (exec .rfTc (withFr frame2)) = some (0x6, 0, 11) := by decide
theorem test_rfClass_identification : seen (exec .rfClass (withFr frame1)) = some (0x6, 0, 1) := by decide
theorem test_rfClass_absent : seen (exec .rfClass (withFr (Vector.replicate 14 0))) = some (0x4, 0, 0) := by decide
theorem test_rfCprload_even : exec .rfCprload (withFr frame2) =
    .next (presented 0 { withFr frame2 with cprX0 := 51372, cprY0 := 93000 }) := by rfl
theorem test_rfCprload_odd : exec .rfCprload (withFr frame3) =
    .next (presented 1 { withFr frame3 with cprX1 := 50194, cprY1 := 74158 }) := by rfl
theorem test_fifoPop : seen (exec .fifoPop { State.reset with fifo := [⟨10000, frame1⟩, ⟨140000, frame3⟩] }) =
    some (0x00010006, 0, 1) := by decide
theorem test_fifoPop_empty : seen (exec .fifoPop State.reset) = some (0x901, 0, 0) := by decide
theorem test_nop_step : seen (step (State.reset.withFetchWord 32 0)) = some (0, 0, 0) := by decide

/-! CPR: 95_test_vectors.md section 2.5 -/

/-- Reset with the four CPR fields loaded. -/
def withCpr (x0 y0 x1 y1 : CprField) : State :=
  { State.reset with cprX0 := x0, cprY0 := y0, cprX1 := x1, cprY1 := y1 }

theorem test_cprDecode_negative_zone : seen (exec (.cprDecode 1) (withCpr 84890 39544 103500 12657)) =
    some (0x2, 0, 0x347C9E5FDA46CCCD) := by decide
theorem test_cprDecode_south_nl_1 : seen (exec (.cprDecode 0) (withCpr 94663 21845 94663 54249)) =
    some (0x2, 0, 0xC0B60AABB8E38000) := by decide
theorem test_cprSolve_tie_up : cprSolve .up false 0 1124 0 13 = some (72196642, 0) := by decide
theorem test_cprSolve_boundary_87 : cprSolve .even false 0 65536 0 33860 = none := by decide

/-! The stream: 95_test_vectors.md section 2.3 -/

theorem test_source_four_bytes :
    (([0x64, 0x08, 0xCE, 0x07] : List Byte).foldl (fun s b => sourceByte b s) State.reset).power = [12500] := by decide
theorem test_window_accepted : (evalWindow withWindow).fifo = [⟨0, frame1⟩] ∧ (evalWindow withWindow).pos = 1200 := by
  have h : evalWindow withWindow = setPos 1200 (pushFrame (frameAt framePowers 0) withWindow) := by
    show (if _ then _ else if accept framePowers 0 = true then _ else _) = _
    rw [framePowers_accepted]
    rfl
  rw [h]
  exact ⟨by simp [frameAt, framePowers_bytes, setPos, pushFrame, withWindow, State.reset], rfl⟩
theorem test_window_rejected : (evalWindow { withWindow with power := List.replicate 1200 0 }).pos = 1 := by
  decide +kernel
theorem test_timestamp_limit :
    statusWord (evalWindow { State.reset with pos := 92233720368547759 }) = 0x00000C01 := by decide

/-! Registers: 95_test_vectors.md section 2.6 and program 3 -/

theorem test_read_unmapped : seen (busRead .b4 0x70 State.reset) = some (0xA01, 0x80000470, 0) := by decide
theorem test_read_two_bytes : seen (busRead .b2 0x04 State.reset) = some (0xA01, 0x80000204, 0) := by decide
theorem test_write_read_only : seen (busWrite .b4 0x18 1 State.reset) = some (0xA01, 0xC0000418, 0) := by decide
theorem test_write_blen_17 : seen (busWrite .b4 0x28 17 State.reset) = some (0xB01, 0xC0000428, 0) := by decide
theorem test_write_while_faulted : busWrite .b4 0x28 3 withFault = .next withFault := by rfl
theorem test_soft_reset_clears_fault : busWrite .b4 0x00 3 withFault = .next State.reset := by rfl
theorem test_read_fr_w3 : dataOf (busRead .b4 0x64 (withFr frame1)) = some 0x60980000 := by decide
theorem test_write_bbuf1 : (setBbufWord 1 0x202CC371 State.reset).bbuf[5] = 0x2C := by decide
theorem test_illegal_word_stored :
    seen (step (State.reset.withFetchWord 32 0x230)) = some (0x101, 0x230, 0) := by decide

/-! Witnesses: for each statement with hypotheses, a state and operands that meet them all -/

theorem witness_DecodeOfEncode : WellFormed (.cprDecode 1) ∧ WellFormed (.bvExtract 255 255) := by decide

theorem witness_EncodeOfDecode : decode 0x00000130 = .ok (.cprDecode 1) := by decide

theorem witness_WordIsLegal :
    (0x00FFFF01 : Word) &&& (tableRow (.bvExtract 0 0)).2 = (tableRow (.bvExtract 0 0)).1 ∧
      ∀ i, (0x00000003 : Word) &&& (tableRow i).2 ≠ (tableRow i).1 := by
  refine ⟨by decide, fun i => ?_⟩
  cases i <;> simp only [tableRow] <;> decide

theorem witness_StepRuns :
    let s := withAccess (.write .b4 0x08 0x11) State.reset
    nextAgent s = .host ∧ nextAccess s = .write .b4 0x08 0x11 ∧ s.fault = false ∧
      decode 0x11 = .ok .crcCompute := by decide

/-- An illegal word placed as a CMD write, with no fault recorded. -/
theorem witness_StepIllegal :
    let s := withAccess (.write .b4 0x08 3) State.reset
    nextAgent s = .host ∧ nextAccess s = .write .b4 0x08 3 ∧ s.fault = false ∧
      ∀ i, (3 : Word) &&& (tableRow i).2 ≠ (tableRow i).1 :=
  ⟨rfl, rfl, rfl, fun i => by cases i <;> simp only [tableRow] <;> decide⟩

theorem witness_HostAccesses :
    (let s := withAccess (.read .b2 0x70) State.reset
     nextAgent s = .host ∧ nextAccess s = .read .b2 0x70) ∧
    (let s := withAccess (.write .b4 0x28 17) withFault
     nextAgent s = .host ∧ nextAccess s = .write .b4 0x28 17) := by decide

theorem witness_PlacedCommand : WellFormed .fifoPop ∧ State.reset.fault = false := by decide

theorem witness_Nop : (0x00FFFF00 : Word).extractLsb' 0 8 = 0 ∧ (0x00FFFF00 : Word) ≠ 0 ∧
    withFault.fault = true := by decide

theorem witness_BvExtract :
    (0 < (31 : Byte).toNat ∧ (31 : Byte).toNat < 32 ∧ (33 : Byte).toNat + (31 : Byte).toNat ≤ 64) ∧
      (0 : Byte).toNat = 0 ∧ 32 ≤ (32 : Byte).toNat ∧ 64 < (64 : Byte).toNat + (1 : Byte).toNat := by decide

theorem witness_BvTestbit : (63 : Byte).toNat < 64 ∧ 64 ≤ (64 : Byte).toNat := by decide

theorem witness_BsByteat : (13 : Byte).toNat < withBuf.blen.val ∧ withBuf.blen.val ≤ (14 : Byte).toNat := by decide

theorem witness_BsRange :
    ((6 : Byte).toNat ≤ (14 : Byte).toNat ∧ (14 : Byte).toNat ≤ withBuf.blen.val ∧
      (14 : Byte).toNat - (6 : Byte).toNat ≤ 8) ∧
    (4 : Byte).toNat < (5 : Byte).toNat ∧ withBuf.blen.val < (15 : Byte).toNat ∧
    ((5 : Byte).toNat ≤ (14 : Byte).toNat ∧ (14 : Byte).toNat ≤ withBuf.blen.val ∧
      8 < (14 : Byte).toNat - (5 : Byte).toNat) := by decide

theorem witness_BitViewAgree : (63 : Byte).toNat < 64 ∧ (13 : Byte).toNat < withBuf.blen.val := by decide

theorem witness_CrcCompute : State.reset.blen.val = 0 := by decide

theorem witness_RfOf :
    frame1.toList = withBuf.bbuf.toList.take 14 ∧ State.reset.blen.val ≠ 14 ∧
      (withBuf.blen.val = 14 ∧ 0 ≤ withBuf.ts.toInt ∧ crc frame1.toList = 0) ∧
      (let s := { withBuf with ts := 0x8000000000000000 }
       s.blen.val = 14 ∧ s.ts.toInt < 0) ∧
      (let s := { withBuf with bbuf := withBuf.bbuf.set 13 0x99 }
       (frame1.set 13 0x99).toList = s.bbuf.toList.take 14 ∧ s.blen.val = 14 ∧ 0 ≤ s.ts.toInt ∧
        crc (frame1.set 13 0x99).toList ≠ 0) := by decide

theorem witness_FrameAccessors : (withFr frame1).frValid = true ∧ State.reset.frValid = false := by decide

theorem witness_RfClass :
    State.reset.frValid = false ∧ classOf ((withFr (Vector.replicate 14 0)).fr.bytes[4].toNat / 8) = 0 ∧
      classOf ((withFr frame1).fr.bytes[4].toNat / 8) ≠ 0 ∧ (withFr frame1).frValid = true := by decide

theorem witness_RfCprload :
    let me : Vector Byte 14 → Nat := fun f => beNat (withFr f).fr.bytes.toList 4 11
    State.reset.frValid = false ∧ classOf (me frame1 / 2 ^ 51) ≠ 2 ∧
      (classOf (me frame2 / 2 ^ 51) = 2 ∧ me frame2 / 2 ^ 34 % 2 = 0) ∧
      (classOf (me frame3 / 2 ^ 51) = 2 ∧ me frame3 / 2 ^ 34 % 2 = 1) := by decide

theorem witness_FifoPop : State.reset.fifo = [] ∧
    { State.reset with fifo := [⟨10000, frame1⟩] }.fifo = ⟨10000, frame1⟩ :: [] := by decide

theorem witness_CprDecode : cprQ false 0 0 0 0 = some (0, 0) ∧ cprQ false 0 65536 0 33860 = none := by
  decide +kernel

theorem witness_CommandsLeave : exec .nop State.reset = .next State.reset ∧
    Instr.nop ≠ .fifoPop ∧ Instr.nop ≠ .rfOf ∧ Instr.nop ≠ .rfCprload := by
  exact ⟨rfl, by decide, by decide, by decide⟩

theorem witness_StreamIndependence : Instr.rfOf ≠ .fifoPop := by decide

/-- A host read of CMD placed at reset. -/
def readState : State := withAccess (.read .b4 0x08) State.reset

/-- A read of an unmapped offset placed at reset. -/
def badReadState : State := withAccess (.read .b4 0x70) State.reset

theorem witness_OnlyCommands :
    step readState = .next { accessed readState with readData := some 0 } ∧ softResetNext readState = false ∧
      ¬ commandNext readState ∧
      (step badReadState = .next { raised .badReg 0x80000470 (accessed badReadState) with readData := some 0 } ∧
        badReadState.fault = false) ∧
      (exec .rfClass (withFr (Vector.replicate 14 0)) = .next (absented (withFr (Vector.replicate 14 0))) ∧
        Instr.rfClass ≠ .nop) := by
  refine ⟨rfl, by decide, ?_, ⟨rfl, rfl⟩, rfl, by decide⟩
  rintro ⟨-, -, w, h⟩
  cases h

theorem witness_FaultEntry :
    step badReadState = .next { raised .badReg 0x80000470 (accessed badReadState) with readData := some 0 } ∧
      badReadState.fault = false := ⟨rfl, rfl⟩

/-- An ill-sized write placed at reset: a step that faults and is no read. -/
def badWriteState : State := withAccess (.write .b2 0x08 0) State.reset

theorem witness_FaultEntryReads : readNext badReadState ∧ ¬ readNext badWriteState ∧
    step badWriteState = .next (raised .badReg 0xC0000208 (accessed badWriteState)) ∧ badWriteState.fault = false := by
  refine ⟨⟨rfl, _, _, rfl⟩, ?_, rfl, rfl⟩
  rintro ⟨-, _, _, h⟩
  cases h

/-- A faulted state with a write of BLEN placed. -/
def faultedWriteState : State := withAccess (.write .b4 0x28 3) withFault

/-- A soft reset placed at reset. -/
def resetState : State := withAccess (.write .b4 0x00 2) State.reset

/-- A faulted state with a soft reset placed. -/
def faultedResetState : State := withAccess (.write .b4 0x00 2) withFault

theorem witness_Faulted :
    (step faultedWriteState = .next (accessed faultedWriteState) ∧ faultedWriteState.fault = true ∧
      softResetNext faultedWriteState = false) ∧
    (step faultedResetState = .next (softReset (accessed faultedResetState)) ∧ faultedResetState.fault = true ∧
      softResetNext faultedResetState = true) ∧
    State.reset.fault = false := ⟨⟨rfl, rfl, rfl⟩, ⟨rfl, rfl, rfl⟩, rfl⟩

/-- A state whose window is full at the first position whose timestamp does not fit, with the Demodulator's turn. -/
def lateState : State :=
  { State.reset with
    demodEn := true
    turns := [.demodulator]
    pos := 92233720368547759
    power := List.replicate 92233720368548959 0 }

theorem late_window_full : windowFull lateState = true := by
  have h : lateState.power.length = 92233720368548959 := List.length_replicate
  simp only [windowFull, h]
  decide

theorem late_enabled : demodEnabled lateState = true := by
  have hd : lateState.fifo.length < Config.fifoDepth := Nat.succ_pos _
  simp only [demodEnabled, late_window_full, hd]
  rfl

theorem witness_TimestampOverflow :
    step lateState = .next (raised .tsOverflow 0 (idle lateState)) ∧ lateState.fault = false ∧
      nextAgent lateState ≠ .host ∧ demodHasStep lateState ∧ full lateState ∧
      lateState.pos.toNat * 100 > 2 ^ 63 - 1 := by
  have hf : windowFull (takeTurn lateState) = true := late_window_full
  have hp : (takeTurn lateState).pos.toNat * Config.samplePeriodNs > 2 ^ 63 - 1 := by decide
  have hfull : full lateState :=
    of_decide_eq_true (p := lateState.pos.toNat + Config.windowSize ≤ lateState.power.length) late_window_full
  refine ⟨?_, rfl, by decide, ⟨rfl, rfl, rfl, .inl ⟨hfull, Nat.succ_pos _⟩⟩, hfull, by decide⟩
  rw [step_demodulator rfl]
  simp only [demodTurn, late_enabled, demodStep, hf, evalWindow, hp, if_true]
  rfl

theorem witness_SoftReset : (2 : Word).getLsbD 1 = true := by decide

theorem witness_Ctrl : (1 : Word).getLsbD 1 = false := by decide

theorem witness_Status : State.reset.fifo.length ≤ 65535 := by decide

theorem witness_EveryOffset : ((0x6C : Byte), (0 : Word)) ∈ registerValues State.reset := by decide

theorem witness_LegalRead : mapped 0x00 ∧ mapped 0x28 ∧ mapped 0x30 ∧ mapped 0x6C := by
  unfold mapped
  decide

theorem witness_IllegalAccess : State.reset.fault = false ∧ ¬ (AccessSize.b4 = .b4 ∧ mapped 0x2C) ∧
    ¬ (AccessSize.b4 = .b4 ∧ mapped 0x70) ∧ ¬ (AccessSize.b8 = .b4 ∧ mapped 0x08) ∧
    (0x04 : Byte) ∈ readOnlyOffsets ∧ (0x6C : Byte) ∈ readOnlyOffsets := by
  unfold mapped
  decide

theorem witness_FaultedAccess : withFault.fault = true ∧ mapped 0x6C ∧ ¬ (AccessSize.b4 = .b4 ∧ mapped 0x70) ∧
    (0x28 : Byte) ≠ 0x00 ∧ AccessSize.b2 ≠ .b4 ∧ (2 : Word).getLsbD 1 = true ∧ (1 : Word).getLsbD 1 = false := by
  unfold mapped
  decide

theorem witness_PlainRegisters : State.reset.fault = false ∧ regAt 0x10 = some .opaLo ∧
    (Reg.opaLo, (0xFFFFFFFF : Word)) ∈ plainRegs ∧ regAt 0x4C = some .cprY1 ∧
    (Reg.cprY1, (0x1FFFF : Word)) ∈ plainRegs ∧ Reg.ctrl ≠ .cprY1 := by decide

theorem witness_Blen : State.reset.fault = false ∧ (16 : Word).toNat ≤ 16 ∧ 16 < (17 : Word).toNat := by decide

/-- The Source's turn with this item placed. -/
def withItem (i : SourceItem) (s : State) : State := { s with turns := [.source], stream := [i] }

theorem witness_Source :
    nextAgent (withItem (.byte 1) State.reset) = .source ∧ nextItem (withItem (.byte 1) State.reset) = .byte 1 ∧
      room (withItem (.byte 1) State.reset) ∧
      nextItem (withItem .endOfStream State.reset) = .endOfStream ∧
      (withItem (.byte 1) withFault).fault = true ∧
      ¬ room (withItem (.byte 1) { State.reset with power := List.replicate Config.pbufCap 0 }) := by
  refine ⟨rfl, rfl, .inl ⟨rfl, ?_⟩, rfl, rfl, ?_⟩
  · show 0 < 1201 + Config.pbufExtra
    omega
  · rintro (⟨-, h⟩ | ⟨h, -⟩)
    · exact absurd h (by simp [withItem])
    · exact absurd h (by decide)

/-- A state with DONE set and the Demodulator's turn. -/
def doneState : State := { State.reset with done := true, eos := true, turns := [.demodulator] }

/-- The buffer condition at POS >= 1: room with POS past the stream, none with PBUF_CAP samples from POS - 1 on. -/
theorem witness_SourceLater :
    room (withItem (.byte 1) { State.reset with pos := 1, power := [0] }) ∧
      ¬ room (withItem (.byte 1) { State.reset with pos := 5, power := List.replicate (Config.pbufCap + 4) 0 }) := by
  refine ⟨.inr ⟨by decide, ?_⟩, ?_⟩
  · show ((1 : Nat) : Int) - (((1 : Nat) : Int) - 1) < ((1201 + Config.pbufExtra : Nat) : Int)
    omega
  · rintro (⟨h, -⟩ | ⟨-, h⟩)
    · exact absurd h (by decide)
    · have hp : (5 : DWord).toNat = 5 := rfl
      simp only [withItem, List.length_replicate, hp] at h
      omega

/-- A byte and a sample waiting when the Source ends its stream: 0x11 waits in 95_test_vectors.md section 2.3. -/
def remainderState : State :=
  withItem .endOfStream { State.reset with lowByte := some 0x11, half := some 5, nSamples := 1 }

theorem test_endOfStream_discards : step remainderState =
    .next { remainderState with moves := 1, turns := [], stream := [], eos := true, lowByte := none, half := none } := by
  rw [step_source rfl]
  rfl

theorem witness_EndOfStream : ∃ t, step remainderState = .next t ∧ remainderState.eos = false ∧ t.eos = true :=
  ⟨_, test_endOfStream_discards, rfl, rfl⟩

theorem witness_AfterEndOfStream : ∃ t, step doneState = .next t ∧ doneState.eos = true ∧
    softResetNext doneState = false := ⟨_, step_demodulator rfl, rfl, rfl⟩

theorem witness_DeliveredBytes : State.reset.lowByte = none ∧
    { State.reset with lowByte := some 1 }.lowByte = some 1 ∧ State.reset.half = none ∧
    { State.reset with half := some 5 }.half = some 5 := by decide

theorem window_full : windowFull withWindow = true := decide_eq_true (Nat.le_of_eq framePowers_length.symm)

theorem window_frame : accept withWindow.power 0 = true := framePowers_accepted

/-- The Demodulator's turn at the end of an empty stream. -/
def endState : State := { State.reset with demodEn := true, eos := true, turns := [.demodulator] }

theorem witness_Demodulator :
    nextAgent withWindow = .demodulator ∧
      (demodHasStep withWindow ∧ full withWindow ∧ withWindow.pos.toNat * 100 ≤ 2 ^ 63 - 1 ∧
        accept withWindow.power withWindow.pos.toNat = true) ∧
      (demodHasStep endState ∧ ¬ full endState) ∧
      ¬ demodHasStep { withWindow with demodEn := false } := by
  have hfull : full withWindow :=
    of_decide_eq_true (p := withWindow.pos.toNat + Config.windowSize ≤ withWindow.power.length) window_full
  refine ⟨rfl, ⟨⟨rfl, rfl, rfl, .inl ⟨hfull, Nat.succ_pos _⟩⟩, hfull, by decide, window_frame⟩,
    ⟨⟨rfl, rfl, rfl, .inr ⟨?_, rfl⟩⟩, ?_⟩, ?_⟩
  · show ¬ (0 + 1200 ≤ 0)
    omega
  · show ¬ (0 + 1200 ≤ 0)
    omega
  · rintro ⟨h, -⟩
    cases h

/-- The same window with nothing in it: full and rejected. -/
def quietState : State :=
  { State.reset with demodEn := true, power := List.replicate 1200 0, turns := [.demodulator] }

theorem witness_DemodulatorRejects :
    demodHasStep quietState ∧ full quietState ∧ quietState.pos.toNat * 100 ≤ 2 ^ 63 - 1 ∧
      accept quietState.power quietState.pos.toNat = false := by
  have hfull : full quietState := by
    show 0 + 1200 ≤ (List.replicate 1200 0).length
    exact Nat.le_of_eq List.length_replicate.symm
  exact ⟨⟨rfl, rfl, rfl, .inl ⟨hfull, Nat.succ_pos _⟩⟩, hfull, by decide, by decide +kernel⟩

/-- A FIFO_POP placed on a FIFO with one frame. -/
def popState : State :=
  withAccess (.write .b4 0x08 0x00000040) { State.reset with fifo := [⟨10000, frame1⟩] }

theorem witness_Fifo :
    (∃ t, step popState = .next t ∧ softResetNext popState = false ∧ popNext popState) ∧
      (∃ t, step faultedResetState = .next t ∧ softResetNext faultedResetState = true) ∧
      (∃ t, step withWindow = .next t ∧ softResetNext withWindow = false ∧ ¬ popNext withWindow ∧
        appendedNext withWindow ≠ []) := by
  have hen : demodEnabled withWindow = true := by
    have hd : withWindow.fifo.length < Config.fifoDepth := Nat.succ_pos _
    simp only [demodEnabled, window_full, hd]
    rfl
  have hpos : withWindow.pos.toNat = 0 := rfl
  refine ⟨⟨_, rfl, by decide, rfl, rfl, rfl⟩, ⟨_, rfl, by decide⟩, ⟨_, step_demodulator rfl, by decide, ?_, ?_⟩⟩
  · rintro ⟨-, h, -⟩
    cases h
  · have ha : nextAgent withWindow = .demodulator := rfl
    simp [appendedNext, ha, hen, window_full, hpos, window_frame]

theorem witness_FifoWithinDepth : popState.fifo.length ≤ Config.fifoDepth ∧ ∃ t, step popState = .next t :=
  ⟨Nat.succ_le_succ (Nat.zero_le _), _, rfl⟩

theorem witness_Position :
    ∃ t, step quietState = .next t ∧ softResetNext quietState = false ∧ t.pos ≠ quietState.pos := by
  obtain ⟨⟨-, -, -, hs⟩, hfull, -, hacc⟩ := witness_DemodulatorRejects
  have hw : windowFull quietState = true := decide_eq_true hfull
  have hen : demodEnabled quietState = true := by
    have hd : quietState.fifo.length < Config.fifoDepth := Nat.succ_pos _
    simp only [demodEnabled, hw, hd]
    rfl
  refine ⟨_, step_demodulator rfl, by decide, ?_⟩
  obtain ⟨h, -⟩ | ⟨-, h, -, -⟩ | ⟨-, -, -, h⟩ := demodTurn_cases quietState
  · exact absurd (hen.symm.trans h) (by decide)
  · exact absurd (hw.symm.trans h) (by decide)
  · rw [h]
    obtain ⟨hp, -⟩ | ⟨-, h', -⟩ | ⟨-, -, h'⟩ := evalWindow_cases (takeTurn quietState)
    · exact absurd hp (by decide)
    · exact absurd (h'.symm.trans hacc) (by decide)
    · rw [h']
      decide

theorem witness_SharedState :
    (∃ t, step (withItem (.byte 1) State.reset) = .next t ∧ nextAgent (withItem (.byte 1) State.reset) ≠ .host) ∧
      (∃ t, step readState = .next t ∧ nextAgent readState = .host ∧ softResetNext readState = false) :=
  ⟨⟨_, step_source rfl, by decide⟩, ⟨_, rfl, rfl, rfl⟩⟩

theorem witness_Done : ∃ t, step doneState = .next t ∧ doneState.done = true ∧ softResetNext doneState = false ∧
    nextAgent doneState = .demodulator := ⟨_, step_demodulator rfl, rfl, rfl, rfl⟩

/-- The invariant holds at reset with anything placed in the environment, so its preservation is about some state. -/
theorem witness_Invariant : ∃ s t, State.Inv s ∧ step s = .next t := by
  refine ⟨readState, _, ?_, rfl⟩
  refine ⟨Nat.zero_le _, ?_, ?_, ?_, ?_, ?_, ?_, rfl, fun _ => rfl, nofun, ?_, ?_, ?_, Nat.le_refl _, ?_, ?_, ?_⟩
  · intro f h; cases h
  · intro f h; cases h
  · exact List.Pairwise.nil
  · intro h; cases h
  · intro _; exact ⟨rfl, rfl⟩
  · intro h; cases h
  · decide
  · intro x h; cases h
  · intro v h; cases h
  · decide
  · show ((0 : Nat) : Int) - max (((0 : Nat) : Int) - 1) 0 ≤ _
    have : (0 : Int) ≤ Config.pbufCap := Int.natCast_nonneg _
    omega
  · intro h; cases h

/-! A stream run that delivers 4800 bytes, appends the frame they hold and ends: for the statements about runs -/

/-- The turns that deliver the bytes of one pair. -/
def fourTurns : Byte → List Agent := fun _ => [.source, .source, .source, .source]

/-- A state after these pairs, with the turns and items they take used up. -/
def fed : List Byte → State → State
  | [], s => s
  | e :: es, s =>
    let h := shiftHist s.hist (sampleOf e 8) (sampleOf 0 8)
    fed es { s with
      moves := s.moves + 4, turns := s.turns.drop 4, stream := s.stream.drop 4
      nSamples := s.nSamples + 2, hist := h, power := s.power ++ [firPower h] }

theorem fed_power (es : List Byte) (s : State) : (fed es s).power = s.power ++ pairPowers es s.hist := by
  induction es generalizing s with
  | nil => simp [fed, pairPowers]
  | cons e es ih => simp [fed, pairPowers, ih]

theorem fed_rest (es : List Byte) (s : State) : fed es s = { s with
    moves := (fed es s).moves, turns := (fed es s).turns, stream := (fed es s).stream
    nSamples := (fed es s).nSamples, hist := (fed es s).hist, power := (fed es s).power } := by
  induction es generalizing s with
  | nil => rfl
  | cons e es ih => exact ih _

theorem fed_turns (es : List Byte) (ts : List Agent) (s : State) (h : s.turns = es.flatMap fourTurns ++ ts) :
    (fed es s).turns = ts := by
  induction es generalizing s with
  | nil => exact h
  | cons e es ih => exact ih _ (by simp [h, fourTurns])

theorem fed_stream (es : List Byte) (xs : List SourceItem) (s : State)
    (h : s.stream = (es.flatMap blockBytes).map .byte ++ xs) : (fed es s).stream = xs := by
  induction es generalizing s with
  | nil => exact h
  | cons e es ih => exact ih _ (by simp [h, blockBytes])

theorem room_early {s : State} (hp : s.pos = 0) (hl : s.power.length ≤ 1200) : bufferHasRoom s = true := by
  have : s.power.length < Config.pbufCap := by
    have : Config.pbufCap = 1200 + 1 + Config.pbufExtra := rfl
    omega
  simp [bufferHasRoom, hp, this]

theorem run_fed {es : List Byte} {bytes : List Byte} {fs : List Frame} {s : State} {ts : List Agent}
    {xs : List SourceItem} (run : StreamRun bytes fs s) (ht : s.turns = es.flatMap fourTurns ++ ts)
    (hx : s.stream = (es.flatMap blockBytes).map .byte ++ xs) (hf : s.fault = false) (he : s.eos = false)
    (hl : s.lowByte = none) (hh : s.half = none) (hp : s.pos = 0) (hr : s.power.length + es.length ≤ 1200) :
    StreamRun (bytes ++ es.flatMap blockBytes) fs (fed es s) := by
  induction es generalizing bytes s with
  | nil => simpa [Tests.fed] using run
  | cons e es ih =>
    simp only [List.length_cons] at hr
    simp only [List.flatMap_cons, fourTurns, blockBytes, List.cons_append, List.nil_append, List.map_cons] at ht hx
    have r1 := run.byte ht hx hf he (room_early hp (by omega))
    have r2 := r1.byte (ts := _) (xs := _) (b := 8) (by simp [sourceByte, hl]; rfl) (by simp [sourceByte, hl]; rfl)
      (by simp [sourceByte, hl, hf]) (by simp [sourceByte, hl, he])
      (room_early (by simp [sourceByte, hl, hp]) (by simp [sourceByte, hl]; omega))
    have r3 := r2.byte (ts := _) (xs := _) (b := 0) (by simp [sourceByte, firSample, hl, hh]; rfl) (by simp [sourceByte, firSample, hl, hh]; rfl)
      (by simp [sourceByte, firSample, hl, hh, hf]) (by simp [sourceByte, firSample, hl, hh, he])
      (room_early (by simp [sourceByte, firSample, hl, hh, hp]) (by simp [sourceByte, firSample, hl, hh]; omega))
    have r4 := r3.byte (ts := _) (xs := _) (b := 8) (by simp [sourceByte, firSample, hl, hh]; rfl) (by simp [sourceByte, firSample, hl, hh]; rfl)
      (by simp [sourceByte, firSample, hl, hh, hf]) (by simp [sourceByte, firSample, hl, hh, he])
      (room_early (by simp [sourceByte, firSample, hl, hh, hp]) (by simp [sourceByte, firSample, hl, hh]; omega))
    have h := ih r4
    simp [sourceByte, firSample, hl, hh] at h
    have := h (by simp [hf]) he hp (by omega)
    simpa [Tests.fed, blockBytes, ht, hx, hl, hh] using this

/-- From a full accepted window, with end of stream placed: the frame, the end of the stream, DONE. -/
theorem run_ends {bytes : List Byte} {s : State} (run : StreamRun bytes [] s)
    (ht : s.turns = [.demodulator, .source, .demodulator]) (hx : s.stream = [.endOfStream]) (hd : s.demodEn = true)
    (hf : s.fault = false) (hn : s.done = false) (he : s.eos = false) (hp : s.pos = 0) (hq : s.fifo = [])
    (hl : s.power.length = 1200) (ha : accept s.power 0 = true) :
    ∃ t, StreamRun bytes [frameAt s.power 0] t ∧ t.done = true := by
  have hdep : 0 < Config.fifoDepth := Nat.succ_pos _
  have n1 : nextAgent s = .demodulator := by simp [nextAgent, ht]
  have r1 := StreamRun.step run (by simp [softResetNext, n1]) (step_demodulator n1)
  have e1 : demodTurn s = { s with
      moves := s.moves + 1, turns := [.source, .demodulator], fifo := [frameAt s.power 0], pos := 1200 } := by
    simp [demodTurn, demodEnabled, demodStep, evalWindow, windowFull, pushFrame, setPos, takeTurn, Config.windowSize,
      hd, hf, hn, hp, hq, hl, ha, ht, hdep]
  have a1 : appendedNext s = [frameAt s.power 0] := by
    simp [appendedNext, n1, demodEnabled, windowFull, Config.windowSize, hd, hf, hn, hp, hq, hl, ha, hdep]
  have d1 : deliveredNext s = [] := by simp [deliveredNext, n1]
  rw [e1, a1, d1, List.append_nil, List.nil_append] at r1
  have r2 := StreamRun.step r1 (by rfl) (step_source rfl)
  have e2 : sourceTurn { s with
      moves := s.moves + 1, turns := [.source, .demodulator], fifo := [frameAt s.power 0], pos := 1200 } = { s with
      moves := s.moves + 2, turns := [.demodulator], stream := [], eos := true, lowByte := none, half := none
      fifo := [frameAt s.power 0], pos := 1200 } := by
    simp [sourceTurn, nextItem, sourceEnabled, sourceItem, endStream, takeItem, takeTurn, hx, hf, he]
  have d2 : deliveredNext { s with
      moves := s.moves + 1, turns := [.source, .demodulator], fifo := [frameAt s.power 0], pos := 1200 } = [] := by
    simp [deliveredNext, nextAgent, nextItem, hx]
  have a2 : appendedNext { s with
      moves := s.moves + 1, turns := [.source, .demodulator], fifo := [frameAt s.power 0], pos := 1200 } = [] := by
    simp [appendedNext, nextAgent]
  rw [e2, d2, a2, List.append_nil, List.append_nil] at r2
  have r3 := StreamRun.step r2 (by rfl) (step_demodulator rfl)
  have d3 : deliveredNext { s with
      moves := s.moves + 2, turns := [.demodulator], stream := [], eos := true, lowByte := none, half := none
      fifo := [frameAt s.power 0], pos := 1200 } = [] := by
    simp [deliveredNext, nextAgent]
  have a3 : appendedNext { s with
      moves := s.moves + 2, turns := [.demodulator], stream := [], eos := true, lowByte := none, half := none
      fifo := [frameAt s.power 0], pos := 1200 } = [] := by
    simp [appendedNext, nextAgent, windowFull, Config.windowSize, hl]
  rw [d3, a3, List.append_nil, List.append_nil] at r3
  exact ⟨_, r3, by simp [demodTurn, demodEnabled, demodStep, windowFull, takeTurn, Config.windowSize, hd, hf, hn, hl]⟩

/-- DEMOD_EN set by the host, the blocks, end of stream: the turns and inputs of a run, placed at reset. -/
def blocksRun (es : List Byte) : State :=
  { State.reset with
    turns := .host :: (es.flatMap fourTurns ++ [.demodulator, .source, .demodulator])
    accesses := [.write .b4 0x00 1]
    stream := (es.flatMap blockBytes).map .byte ++ [.endOfStream] }

/-- `blocksRun` after the host's access. -/
def blocksRun1 (es : List Byte) : State :=
  { blocksRun es with
    moves := 1
    turns := es.flatMap fourTurns ++ [.demodulator, .source, .demodulator]
    accesses := []
    demodEn := true }

theorem run_of_blocks (es : List Byte) (hn : es.length = 1200)
    (ha : accept (pairPowers es (Vector.replicate 8 0)) 0 = true) :
    ∃ t, StreamRun (es.flatMap blockBytes) [frameAt (pairPowers es (Vector.replicate 8 0)) 0] t ∧ t.done = true := by
  have h0 : StreamRun [] [] (blocksRun es) := .fresh _ rfl
  have h1 : StreamRun [] [] (blocksRun1 es) := .step (s := blocksRun es) h0 rfl rfl
  have h2 := run_fed (es := es) (ts := [.demodulator, .source, .demodulator]) (xs := [.endOfStream]) h1 rfl rfl rfl rfl
    rfl rfl rfl (Nat.le_of_eq ((Nat.zero_add _).trans hn))
  have hrest := fed_rest es (blocksRun1 es)
  have hP : (fed es (blocksRun1 es)).power = pairPowers es (Vector.replicate 8 0) := fed_power es _
  have hT := fed_turns es [.demodulator, .source, .demodulator] (blocksRun1 es) rfl
  have hX := fed_stream es [.endOfStream] (blocksRun1 es) rfl
  rw [← hP] at ha ⊢
  have hl : (fed es (blocksRun1 es)).power.length = 1200 := by rw [hP, pairPowers_length, hn]
  exact run_ends h2 hT hX (by rw [hrest]; rfl) (by rw [hrest]; rfl) (by rw [hrest]; rfl) (by rw [hrest]; rfl)
    (by rw [hrest]; rfl) (by rw [hrest]; rfl) hl ha

theorem witness_Run : (frameBlocks.flatMap blockBytes).length = 4800 ∧
    ∃ t fs, StreamRun (frameBlocks.flatMap blockBytes) fs t ∧ fs ≠ [] ∧ t.done = true := by
  obtain ⟨t, h, hd⟩ := run_of_blocks frameBlocks frameBlocks_length framePowers_accepted
  exact ⟨by decide +kernel, t, _, h, List.cons_ne_nil _ _, hd⟩

theorem witness_Follows : ∃ t, State.reset.fresh ∧ Follows [] [] readState ∧ step readState = .next t ∧
    softResetNext readState = false ∧ softResetNext resetState = true ∧ Follows [] [] resetState ∧
    step resetState = .next (softReset (accessed resetState)) :=
  ⟨_, rfl, ⟨rfl, rfl, rfl, rfl, rfl, .start, nofun⟩, rfl, rfl, rfl, ⟨rfl, rfl, rfl, rfl, rfl, .start, nofun⟩, rfl⟩

theorem witness_ShortRun : ([] : List Byte).length < 4800 := by decide

theorem witness_CrcLinear : ([1, 2] : List Byte).length = ([3, 4] : List Byte).length := by decide

theorem witness_AcceptedFrame : crc frame1.toList = 0 := by decide

theorem witness_Nl : 0 < (⟨29, 120⟩ : Frac).den ∧ -((⟨29, 120⟩ : Frac).den : Int) ≤ 2 * (⟨29, 120⟩ : Frac).num ∧
    2 * (⟨29, 120⟩ : Frac).num < (⟨29, 120⟩ : Frac).den ∧ nl ⟨29, 120⟩ = 1 ∧ nl ⟨0, 1⟩ = 59 := by decide

theorem witness_DecodedPosition :
    cprSolve .even false 51372 93000 50194 74158 = some (623452706, 46759936) := by decide

theorem witness_T32 : 1 ≤ 59 ∧ 59 ≤ 59 ∧
    cprLongitude .even true 1 (cprFrac 0) (cprFrac 65536) = recenter (cprFrac 65536) := by decide

end Sys2Proof.Tests
end

section
/-!
PROOFS. The invariant of the machine (O48, O49): every named operation of the state keeps `State.Inv`, some under
a condition their callers have checked, and a step is a composition of these operations.
-/

namespace Sys2Proof.Machine

/-! Arithmetic of samples, powers and positions -/

/-- A sample is in the range of 10_state.md R38. -/
theorem sampleOf_range (lo hi : Byte) : -2048 ≤ sampleOf lo hi ∧ sampleOf lo hi ≤ 63487 := by
  have h : (hi ++ lo : BitVec 16).toNat < 65536 := (hi ++ lo : BitVec 16).isLt
  simp only [sampleOf, Config.sampleBias]
  omega

/-- Four samples with alternating signs: the bound of a tap sum of the FIR (42_demod.md R155). -/
theorem tapSum_range {a b c d : Int} (ha : -2048 ≤ a ∧ a ≤ 63487) (hb : -2048 ≤ b ∧ b ≤ 63487)
    (hc : -2048 ≤ c ∧ c ≤ 63487) (hd : -2048 ≤ d ∧ d ≤ 63487) :
    -131070 ≤ a - b + c - d ∧ a - b + c - d ≤ 131070 := by
  omega

/-- Every entry of a history is in range when its list is. -/
theorem hist_getElem_range {h : Vector Int 8} (hr : ∀ x ∈ h.toList, -2048 ≤ x ∧ x ≤ 63487) (i : Nat) (hi : i < 8) :
    -2048 ≤ h[i] ∧ h[i] ≤ 63487 :=
  hr _ (by simp)

/-- A power value is at most 2 * 131070^2 when the samples of the history are in range (42_demod.md R155). -/
theorem firPower_le {h : Vector Int 8} (hr : ∀ x ∈ h.toList, -2048 ≤ x ∧ x ≤ 63487) :
    firPower h ≤ 34358689800 := by
  have hx := hist_getElem_range hr
  have h1 := tapSum_range (hx 0 (by omega)) (hx 2 (by omega)) (hx 4 (by omega)) (hx 6 (by omega))
  have h2 := tapSum_range (hx 1 (by omega)) (hx 3 (by omega)) (hx 5 (by omega)) (hx 7 (by omega))
  have hp1 : firP1 h * firP1 h ≤ 131070 * 131070 := abs_le_iff_mul_self_le.mp (abs_le.mpr h1)
  have hp2 : firP2 h * firP2 h ≤ 131070 * 131070 := abs_le_iff_mul_self_le.mp (abs_le.mpr h2)
  simp only [firPower]
  omega

/-- The shifted history is in range when the old one and the two new samples are. -/
theorem shiftHist_range {h : Vector Int 8} {x y : Int} (hr : ∀ z ∈ h.toList, -2048 ≤ z ∧ z ≤ 63487)
    (hx : -2048 ≤ x ∧ x ≤ 63487) (hy : -2048 ≤ y ∧ y ≤ 63487) :
    ∀ z ∈ (shiftHist h x y).toList, -2048 ≤ z ∧ z ≤ 63487 := by
  have hi := hist_getElem_range hr
  intro z hz
  simp only [shiftHist, Vector.toList_mk, List.mem_cons, List.not_mem_nil, or_false] at hz
  rcases hz with rfl | rfl | rfl | rfl | rfl | rfl | rfl | rfl
  · exact hi 2 _
  · exact hi 3 _
  · exact hi 4 _
  · exact hi 5 _
  · exact hi 6 _
  · exact hi 7 _
  · exact hx
  · exact hy

/-- POS does not wrap when it moves by at most W from a position whose timestamp fits (42_demod.md R168). -/
theorem toNat_pos_add {p : DWord} (hp : p.toNat * 100 ≤ 2 ^ 63 - 1) {n : DWord} (hn : n.toNat ≤ 1200) :
    (p + n).toNat = p.toNat + n.toNat := by
  rw [BitVec.toNat_add]
  omega

/-- The timestamp of a position whose timestamp fits is that position times 100 (42_demod.md R166). -/
theorem frameAt_ts_toNat (P : List Nat) {p : Nat} (hp : p * 100 ≤ 2 ^ 63 - 1) : 
    (frameAt P p).ts.toNat = p * Config.samplePeriodNs := by
  simp only [frameAt, Config.samplePeriodNs, BitVec.toNat_ofNat]
  omega

/-- Bits 7:3 of a byte put together from its bits. -/
theorem toNat_extractLsb'_ofBool (b0 b1 b2 b3 b4 b5 b6 b7 : Bool) :
    ((BitVec.ofBool b0 ++ BitVec.ofBool b1 ++ BitVec.ofBool b2 ++ BitVec.ofBool b3 ++ BitVec.ofBool b4 ++
        BitVec.ofBool b5 ++ BitVec.ofBool b6 ++ BitVec.ofBool b7 : Byte).extractLsb' 3 5).toNat =
      16 * b0.toNat + 8 * b1.toNat + 4 * b2.toNat + 2 * b3.toNat + b4.toNat := by
  revert b0 b1 b2 b3 b4 b5 b6 b7
  decide

/-- The downlink format of a window's frame is the window's downlink format (42_demod.md R165). -/
theorem frameAt_df (P : List Nat) (p : Nat) : (frameAt P p).df.toNat = windowDf P p := by
  simp only [frameAt, frameBytes, Frame.df, Vector.getElem_ofFn, frameByte, windowDf, toNat_extractLsb'_ofBool]

/-- An accepted position's frame has CRC 0 and DF 17 (42_demod.md R165, R175). -/
theorem accept_frame {P : List Nat} {p : Nat} (h : accept P p = true) :
    crc (frameAt P p).bytes.toList = 0 ∧ (frameAt P p).df.toNat = Config.dfAdsb := by
  simp only [accept, candidate, Bool.and_eq_true, decide_eq_true_eq] at h
  obtain ⟨⟨-, hdf⟩, hcrc⟩ := h
  exact ⟨hcrc, (frameAt_df P p).trans hdf⟩

/-- The window is full, in plain arithmetic (42_demod.md R160). -/
theorem windowFull_iff {s : State} : windowFull s = true ↔ s.pos.toNat + Config.windowSize ≤ s.power.length :=
  decide_eq_true_iff

/-- A Demodulator that has a step has DONE = 0 (42_demod.md R170). -/
theorem demodEnabled_done {s : State} (h : demodEnabled s = true) : s.done = false := by
  simp only [demodEnabled, Bool.and_eq_true, Bool.not_eq_true'] at h
  obtain ⟨⟨-, hdone⟩, -⟩ := h
  exact hdone

/-- The room of 10_state.md R44: one more power sample still fits the buffer. -/
theorem bufferHasRoom_bound {s : State} (h : bufferHasRoom s = true) :
    ((s.power.length + 1 : Nat) : Int) - max ((s.pos.toNat : Int) - 1) 0 ≤ Config.pbufCap := by
  unfold bufferHasRoom at h
  split at h <;> simp only [decide_eq_true_eq] at h
  · next h0 =>
    have : s.pos.toNat = 0 := by simp [h0]
    omega
  · omega

/-! The invariant, operation by operation -/

/-- Settles O48: every clause is about an empty list, a cleared flag or a zero. -/
theorem invariantHoldsAtReset : Obligations.InvariantHoldsAtReset where
  fifoBounded := Nat.zero_le _
  fifoFrames := nofun
  fifoTimes := nofun
  fifoSpaced := .nil
  frValidFrame := nofun
  faultClear _ := ⟨rfl, rfl⟩
  faultCause := nofun
  powersCounted := rfl
  samplesCounted _ := rfl
  remaindersDiscarded := nofun
  histRange := by decide
  halfRange := nofun
  powerRange := nofun
  posInStream := le_rfl
  posBounded := Nat.zero_le _
  bufferBounded := by simp [State.reset]
  doneEnded := nofun

variable {s : State}

theorem inv_softReset (s : State) : (softReset s).Inv := { invariantHoldsAtReset with }

theorem inv_takeTurn (h : s.Inv) : (takeTurn s).Inv := { h with }

theorem inv_takeAccess (h : s.Inv) : (takeAccess s).Inv := { h with }

theorem inv_takeItem (h : s.Inv) : (takeItem s).Inv := { h with }

theorem inv_returnData (h : s.Inv) (v : Word) : (returnData v s).Inv := { h with }

theorem inv_setPresent (h : s.Inv) (v : DWord) : (setPresent v s).Inv := { h with }

theorem inv_setAbsent (h : s.Inv) : (setAbsent s).Inv := { h with }

theorem inv_setCprEven (h : s.Inv) (x y : CprField) : (setCprEven x y s).Inv := { h with }

theorem inv_setCprOdd (h : s.Inv) (x y : CprField) : (setCprOdd x y s).Inv := { h with }

theorem inv_setDemodEn (h : s.Inv) (b : Bool) : { s with demodEn := b }.Inv := { h with }

theorem inv_setCmd (h : s.Inv) (w : Word) : { s with cmd := w }.Inv := { h with }

theorem inv_sameButOperands {t : State} (h : s.Inv) (hs : SameButOperands s t) : t.Inv := by
  rw [hs]
  exact { h with }

theorem inv_raiseFault (h : s.Inv) {c : FaultCause} (hc : c ≠ .none) (info : Word) : (raiseFault c info s).Inv :=
  { h with
    faultClear := nofun
    faultCause := fun _ => hc }

theorem inv_dropFrame (h : s.Inv) : (dropFrame s).Inv := { h with frValidFrame := nofun }

theorem inv_loadFrame (h : s.Inv) {f : Frame} (hc : crc f.bytes.toList = 0) (ht : f.ts.msb = false) :
    (loadFrame f s).Inv :=
  { h with frValidFrame := fun _ => ⟨hc, ht⟩ }

/-- A queued frame may go into the frame register: its timestamp is not negative, since POS is bounded
(42_demod.md R168). -/
theorem queued_ts_msb (h : s.Inv) {f : Frame} (hf : f ∈ s.fifo) : f.ts.msb = false := by
  obtain ⟨p, hts, hp⟩ := h.fifoTimes f hf
  have hpos := h.posBounded
  simp only [Config.samplePeriodNs] at hts
  rw [BitVec.msb_eq_false_iff_two_mul_lt]
  omega

theorem inv_popFrame (h : s.Inv) {e : Frame} {rest : List Frame} (hq : s.fifo = e :: rest) :
    { s with fifo := rest }.Inv :=
  have hsub : ∀ f ∈ rest, f ∈ s.fifo := fun f hf => hq ▸ List.mem_cons_of_mem e hf
  { h with
    fifoBounded := (Nat.le_succ _).trans (by simpa [hq] using h.fifoBounded)
    fifoFrames := fun f hf => h.fifoFrames f (hsub f hf)
    fifoTimes := fun f hf => h.fifoTimes f (hsub f hf)
    fifoSpaced := (List.pairwise_cons.mp (hq ▸ h.fifoSpaced)).2 }

/-- A command keeps the invariant: RF_OF loads only what its gate lets through, FIFO_POP only what was queued. -/
theorem inv_effect {i : Instr} {t : State} (h : s.Inv) (he : Effect s i t) : t.Inv := by
  cases he with
  | nop => exact h
  | fault _ c hc => exact inv_raiseFault h hc _
  | present => exact inv_setPresent h _
  | absent => exact inv_setAbsent h
  | frameDropped => exact inv_setAbsent (inv_dropFrame h)
  | frameBuilt f hc ht => exact inv_setPresent (inv_loadFrame h hc ht) _
  | framePopped e rest v hq =>
    have he : e ∈ s.fifo := hq ▸ List.mem_cons_self
    exact inv_setPresent (inv_loadFrame (inv_popFrame h hq) (h.fifoFrames e he).1 (queued_ts_msb h he)) _
  | cprEven x y => exact inv_setPresent (inv_setCprEven h x y) _
  | cprOdd x y => exact inv_setPresent (inv_setCprOdd h x y) _

/-- A host's step keeps the invariant. -/
theorem inv_hostEffect {t : State} (h : s.Inv) (he : HostEffect s t) : t.Inv := by
  have h' : (takeAccess (takeTurn s)).Inv := inv_takeAccess (inv_takeTurn h)
  cases he with
  | read v => exact inv_returnData h' v
  | badRead info => exact inv_returnData (inv_raiseFault h' (by decide) info) 0
  | ignored => exact h'
  | badWrite info => exact inv_raiseFault h' (by decide) info
  | reset => exact inv_softReset _
  | enable => exact inv_setDemodEn h' _
  | illegal w => exact inv_raiseFault (inv_setCmd h' w) (by decide) w
  | command w i t _ _ _ heff => exact inv_effect (inv_setCmd h' w) heff
  | operand t _ hsame => exact inv_sameButOperands h' hsame
  | badLength info => exact inv_raiseFault h' (by decide) info

/-- Before end of stream DONE is 0. -/
theorem not_done_of_not_eos (h : s.Inv) (he : s.eos = false) : s.done ≠ true := fun hd =>
  absurd (he.symm.trans (h.doneEnded hd).1) (by decide)

theorem inv_endStream (h : s.Inv) : (endStream s).Inv :=
  { h with
    samplesCounted := nofun
    remaindersDiscarded := fun _ => ⟨rfl, rfl⟩
    halfRange := nofun
    doneEnded := fun hd => ⟨rfl, (h.doneEnded hd).2⟩ }

theorem inv_setLowByte (h : s.Inv) (he : s.eos = false) (b : Byte) : { s with lowByte := some b }.Inv :=
  { h with remaindersDiscarded := fun he' => absurd (he.symm.trans he') (by decide) }

/-- A sample keeps the invariant: it waits in `half`, or completes its pair and adds one power sample, for which the
buffer has room. -/
theorem inv_firSample (h : s.Inv) (he : s.eos = false) (hroom : bufferHasRoom s = true) {x : Int}
    (hx : -2048 ≤ x ∧ x ≤ 63487) :
    (firSample x { s with lowByte := none, nSamples := s.nSamples + 1 }).Inv := by
  have hcount := h.samplesCounted he
  have hdone := not_done_of_not_eos h he
  have heos : s.eos ≠ true := by simp [he]
  obtain ⟨hhalf, hs⟩ | ⟨y, hhalf, hs⟩ := firSample_cases x { s with lowByte := none, nSamples := s.nSamples + 1 }
  · replace hhalf : s.half = none := hhalf
    simp only [hhalf, Option.toList_none, List.length_nil] at hcount
    rw [hs]
    exact { h with
      powersCounted := by simp only; omega
      samplesCounted := fun _ => by simp only [Option.toList_some, List.length_singleton]; omega
      remaindersDiscarded := fun he' => absurd he' heos
      halfRange := fun z hz => Option.some.inj hz ▸ hx }
  · replace hhalf : s.half = some y := hhalf
    simp only [hhalf, Option.toList_some, List.length_singleton] at hcount
    have hrange := shiftHist_range h.histRange (h.halfRange y hhalf) hx
    have hlen : ∀ v, (s.power ++ [v]).length = s.power.length + 1 := fun v => List.length_append
    rw [hs]
    exact { h with
      powersCounted := by simp only [hlen]; omega
      samplesCounted := fun _ => by simp only [hlen, Option.toList_none, List.length_nil]; omega
      remaindersDiscarded := fun he' => absurd he' heos
      histRange := hrange
      halfRange := nofun
      powerRange := fun v hv => by
        obtain hv | hv := List.mem_append.mp hv
        · exact h.powerRange v hv
        · exact List.mem_singleton.mp hv ▸ firPower_le hrange
      posInStream := by simp only [hlen]; exact Nat.le_succ_of_le h.posInStream
      bufferBounded := by simp only [hlen]; exact bufferHasRoom_bound hroom
      doneEnded := fun hd => absurd hd hdone }

/-- A delivered byte keeps the invariant. -/
theorem inv_sourceByte (h : s.Inv) (he : s.eos = false) (hroom : bufferHasRoom s = true) (b : Byte) :
    (sourceByte b s).Inv := by
  obtain ⟨-, hs⟩ | ⟨lo, -, hs⟩ := sourceByte_cases b s
  · rw [hs]
    exact inv_setLowByte h he b
  · rw [hs]
    exact inv_firSample h he hroom (sampleOf_range lo b)

/-- The Source's turn keeps the invariant. -/
theorem inv_sourceTurn (h : s.Inv) : (sourceTurn s).Inv := by
  obtain ⟨-, hs⟩ | ⟨-, -, -, hs⟩ | ⟨b, -, -, he, hroom, hs⟩ := sourceTurn_cases s
  · rw [hs]
    exact inv_takeTurn h
  · rw [hs]
    exact inv_endStream (inv_takeItem (inv_takeTurn h))
  · rw [hs]
    exact inv_sourceByte (inv_takeItem (inv_takeTurn h)) he hroom b

theorem inv_setDone (h : s.Inv) (he : s.eos = true) (hw : windowFull s = false) : { s with done := true }.Inv :=
  { h with doneEnded := fun _ => ⟨he, Nat.lt_of_not_le (of_decide_eq_false hw)⟩ }

/-- POS may move on, within the power stream and its bound, while DONE is 0. -/
theorem inv_setPos (h : s.Inv) (hd : s.done = false) {p : DWord} (hle : s.pos.toNat ≤ p.toNat)
    (hin : p.toNat ≤ s.power.length) (hb : p.toNat ≤ 92233720368547758 + Config.windowSize) : (setPos p s).Inv :=
  { h with
    fifoTimes := fun f hf =>
      have ⟨q, hts, hq⟩ := h.fifoTimes f hf
      ⟨q, hts, hq.trans hle⟩
    posInStream := hin
    posBounded := hb
    bufferBounded := by
      have := h.bufferBounded
      simp only [setPos_power, setPos_pos]
      omega
    doneEnded := fun hd' => absurd (hd.symm.trans hd') (by decide) }

/-- A frame may be queued when the FIFO has room, the frame is valid, and it was found W before POS and W after the
frames already queued. -/
theorem inv_pushFrame (h : s.Inv) {f : Frame} {p : Nat} (hroom : s.fifo.length < Config.fifoDepth)
    (hf : crc f.bytes.toList = 0 ∧ f.df.toNat = Config.dfAdsb) (hts : f.ts.toNat = p * Config.samplePeriodNs)
    (hp : p + Config.windowSize ≤ s.pos.toNat)
    (hsp : ∀ a ∈ s.fifo, a.ts.toNat + Config.windowSize * Config.samplePeriodNs ≤ f.ts.toNat) :
    (pushFrame f s).Inv :=
  { h with
    fifoBounded := by simpa using hroom
    fifoFrames := fun g hg => by
      obtain hg | hg := List.mem_append.mp hg
      · exact h.fifoFrames g hg
      · exact List.mem_singleton.mp hg ▸ hf
    fifoTimes := fun g hg => by
      obtain hg | hg := List.mem_append.mp hg
      · exact h.fifoTimes g hg
      · exact ⟨p, List.mem_singleton.mp hg ▸ hts, hp⟩
    fifoSpaced := List.pairwise_append.mpr
      ⟨h.fifoSpaced, List.pairwise_singleton _ _, fun a ha g hg => List.mem_singleton.mp hg ▸ hsp a ha⟩ }

/-- Appending a frame and moving POS are independent. -/
theorem setPos_pushFrame (p : DWord) (f : Frame) (s : State) :
    setPos p (pushFrame f s) = pushFrame f (setPos p s) := rfl

/-- An accepted window keeps the invariant: its frame is queued and POS moves on by W (42_demod.md R166). -/
theorem inv_acceptFrame (h : s.Inv) (hd : s.done = false) (hfull : s.pos.toNat + Config.windowSize ≤ s.power.length)
    (hroom : s.fifo.length < Config.fifoDepth) (hfits : s.pos.toNat * 100 ≤ 2 ^ 63 - 1)
    (hacc : accept s.power s.pos.toNat = true) {p : DWord} (hp : p.toNat = s.pos.toNat + Config.windowSize) :
    (setPos p (pushFrame (frameAt s.power s.pos.toNat) s)).Inv := by
  have hts := frameAt_ts_toNat s.power hfits
  have hmoved : (setPos p s).Inv := inv_setPos h hd (by omega) (by omega) (by omega)
  rw [setPos_pushFrame]
  refine inv_pushFrame hmoved hroom (accept_frame hacc) hts hp.ge fun a ha => ?_
  obtain ⟨q, hq, hle⟩ := h.fifoTimes a ha
  rw [hq, hts, ← Nat.add_mul]
  exact Nat.mul_le_mul_right _ hle

/-- The evaluation of a full window keeps the invariant. -/
theorem inv_evalWindow (h : s.Inv) (hd : s.done = false) (hw : windowFull s = true)
    (hroom : s.fifo.length < Config.fifoDepth) : (evalWindow s).Inv := by
  have hfull := windowFull_iff.mp hw
  obtain ⟨-, hs⟩ | ⟨hfits, hacc, hs⟩ | ⟨hfits, -, hs⟩ := evalWindow_cases s
  · rw [hs]
    exact inv_raiseFault h (by decide) 0
  · rw [hs]
    exact inv_acceptFrame h hd hfull hroom hfits hacc (toNat_pos_add hfits (by decide))
  · have hpos : (s.pos + 1).toNat = s.pos.toNat + 1 := toNat_pos_add hfits (by decide)
    simp only [Config.windowSize] at hfull
    rw [hs]
    exact inv_setPos h hd (by omega) (by omega) (by simp only [Config.windowSize]; omega)

/-- The Demodulator's turn keeps the invariant. -/
theorem inv_demodTurn (h : s.Inv) : (demodTurn s).Inv := by
  obtain ⟨-, hs⟩ | ⟨-, hw, he, hs⟩ | ⟨hen, hw, hroom, hs⟩ := demodTurn_cases s
  · rw [hs]
    exact inv_takeTurn h
  · rw [hs]
    exact inv_setDone (inv_takeTurn h) he hw
  · rw [hs]
    exact inv_evalWindow (inv_takeTurn h) (demodEnabled_done hen) hw hroom

/-- Settles O49, by the agent whose turn it is. -/
theorem everyStepKeepsTheInvariant : Obligations.EveryStepKeepsTheInvariant := by
  intro s t h hstep
  cases ha : nextAgent s with
  | host => exact inv_hostEffect h (host_effect ha hstep)
  | source =>
    rw [step_source ha] at hstep
    cases hstep
    exact inv_sourceTurn h
  | demodulator =>
    rw [step_demodulator ha] at hstep
    cases hstep
    exact inv_demodTurn h

end Sys2Proof.Machine
end

section
/-!
PROOFS. The Source's turn, and what POS and DONE do in a step (O39, O45, O47).
-/

namespace Sys2Proof.Machine

open Sys2Proof.Claims

/-- The model's buffer condition is that of 10_state.md R44. -/
theorem bufferHasRoom_iff {s : State} : bufferHasRoom s = true ↔ room s := by
  have hpos : s.pos = 0 ↔ s.pos.toNat = 0 := by simp [← BitVec.toNat_inj]
  unfold bufferHasRoom room
  by_cases h0 : s.pos = 0
  · simp [h0]
  · have h1 : 1 ≤ s.pos.toNat := Nat.one_le_iff_ne_zero.mpr (hpos.not.mp h0)
    rw [if_neg h0, decide_eq_true_iff]
    omega

/-- The Source has no step while faulted or after end of stream (10_state.md R44). -/
theorem sourceEnabled_eq_false {i : SourceItem} {s : State} (h : s.fault = true ∨ s.eos = true) :
    sourceEnabled i s = false := by
  rcases h with h | h <;> simp [sourceEnabled, h]

/-- The Source has no step for a byte without room (10_state.md R44). -/
theorem sourceEnabled_byte_no_room {b : Byte} {s : State} (h : ¬ room s) : sourceEnabled (.byte b) s = false := by
  simp [sourceEnabled, Bool.eq_false_iff.mpr (bufferHasRoom_iff.not.mpr h)]

/-- A Source without a step uses up its turn (log entry 4). -/
theorem sourceTurn_of_disabled {s : State} (h : sourceEnabled (nextItem s) s = false) : sourceTurn s = idle s := by
  simp only [sourceTurn, h]
  rfl

/-- A Source with a step delivers its item. -/
theorem sourceTurn_of_enabled {s : State} {i : SourceItem} (hi : nextItem s = i) (h : sourceEnabled i s = true) :
    sourceTurn s = sourceItem i (takeItem (takeTurn s)) := by
  simp only [sourceTurn, hi, h, if_true]

/-- Settles O39: the cases of `sourceEnabled`. -/
theorem sourceStepsAsItIsEnabled : Obligations.SourceStepsAsItIsEnabled := by
  intro s ha
  rw [step_source ha]
  refine ⟨?_, ?_, ?_, ?_⟩
  · intro h
    rw [sourceTurn_of_disabled (sourceEnabled_eq_false h)]
  · intro hf he hi
    rw [sourceTurn_of_enabled hi (by simp [sourceEnabled, hf, he])]
    rfl
  · intro b hf he hi hr
    rw [sourceTurn_of_enabled hi (by simp [sourceEnabled, hf, he, bufferHasRoom_iff.mpr hr])]
    rfl
  · intro b hi hr
    rw [sourceTurn_of_disabled (hi ▸ sourceEnabled_byte_no_room hr)]

/-! POS and DONE -/

/-- No command touches POS or DONE. -/
theorem Effect.pos_done {i : Instr} {s t : State} (h : Effect s i t) : t.pos = s.pos ∧ t.done = s.done := by
  cases h <;> exact ⟨rfl, rfl⟩

/-- A host's step that is no soft reset touches neither POS nor DONE. -/
theorem HostEffect.pos_done {s t : State} (h : HostEffect s t) (hr : softResetNext s = false) :
    t.pos = s.pos ∧ t.done = s.done := by
  cases h with
  | reset hr' => exact absurd (hr.symm.trans hr') (by decide)
  | command w i t _ _ _ he => exact he.pos_done
  | operand t _ hs => rw [hs]; exact ⟨rfl, rfl⟩
  | _ => exact ⟨rfl, rfl⟩

/-- The Source's turn touches neither POS nor DONE. -/
theorem sourceTurn_pos_done (s : State) : (sourceTurn s).pos = s.pos ∧ (sourceTurn s).done = s.done := by
  obtain ⟨-, hs⟩ | ⟨-, -, -, hs⟩ | ⟨b, -, -, -, -, hs⟩ := sourceTurn_cases s
  · rw [hs]
    exact ⟨rfl, rfl⟩
  · rw [hs]
    exact ⟨rfl, rfl⟩
  · rw [hs, sourceByte_same]
    exact ⟨rfl, rfl⟩

/-- A step that is no soft reset leaves POS and DONE to the Demodulator. -/
theorem step_pos_done {s t : State} (h : step s = .next t) (hr : softResetNext s = false) :
    (t.pos = s.pos ∧ t.done = s.done) ∨ (nextAgent s = .demodulator ∧ t = demodTurn s) := by
  cases ha : nextAgent s with
  | host => exact .inl ((host_effect ha h).pos_done hr)
  | source =>
    rw [step_source ha] at h
    cases h
    exact .inl (sourceTurn_pos_done s)
  | demodulator =>
    rw [step_demodulator ha] at h
    cases h
    exact .inr ⟨rfl, rfl⟩

/-- The evaluation of a window leaves POS, or moves it by 1 or by W without wrapping: past the last position whose
timestamp fits it faults (42_demod.md R168). -/
theorem evalWindow_pos (s : State) : (evalWindow s).pos = s.pos ∨
    (evalWindow s).pos.toNat = s.pos.toNat + 1 ∨ (evalWindow s).pos.toNat = s.pos.toNat + 1200 := by
  obtain ⟨-, hs⟩ | ⟨hfits, -, hs⟩ | ⟨hfits, -, hs⟩ := evalWindow_cases s
  · exact .inl (by rw [hs]; rfl)
  · exact .inr (.inr (by rw [hs]; exact toNat_pos_add hfits (by decide)))
  · exact .inr (.inl (by rw [hs]; exact toNat_pos_add hfits (by decide)))

/-- The Demodulator's turn leaves POS, or moves it by 1 or by W without wrapping. -/
theorem demodTurn_pos (s : State) : (demodTurn s).pos = s.pos ∨
    (demodTurn s).pos.toNat = s.pos.toNat + 1 ∨ (demodTurn s).pos.toNat = s.pos.toNat + 1200 := by
  obtain ⟨-, hs⟩ | ⟨-, -, -, hs⟩ | ⟨-, -, -, hs⟩ := demodTurn_cases s
  · exact .inl (by rw [hs]; rfl)
  · exact .inl (by rw [hs]; rfl)
  · rw [hs]
    exact evalWindow_pos (takeTurn s)

/-- Settles O45: only the Demodulator's turn moves POS, and only by the evaluation of a window. -/
theorem positionMovesOnlyByTheDemodulator : Obligations.PositionMovesOnlyByTheDemodulator := by
  intro s t h hr hne
  obtain ⟨hpos, -⟩ | ⟨ha, rfl⟩ := step_pos_done h hr
  · exact absurd hpos hne
  · exact ⟨ha, (demodTurn_pos s).resolve_left hne⟩

/-- A Demodulator whose stream is done has no step: its turn is used up (42_demod.md R172, log entry 4). -/
theorem demodTurn_of_done {s : State} (hd : s.done = true) : demodTurn s = idle s := by
  have hdis : demodEnabled s = false := by simp [demodEnabled, hd]
  simp only [demodTurn, hdis]
  rfl

/-- Settles O47: every other agent leaves DONE alone, and the Demodulator then has no step. -/
theorem doneStaysUntilReset : Obligations.DoneStaysUntilReset := by
  refine ⟨?_, ?_⟩
  · intro s t h hd hr
    obtain ⟨-, hdone⟩ | ⟨-, rfl⟩ := step_pos_done h hr
    · exact hdone.trans hd
    · rw [demodTurn_of_done hd]
      exact hd
  · intro s hd ha
    rw [step_demodulator ha, demodTurn_of_done hd]

end Sys2Proof.Machine
end

section
/-!
PROOFS. Decoding and encoding a command word, and the step that runs it (O5, O6).
-/

namespace Sys2Proof.Machine

open Sys2Proof.Claims

/-! The fields of a command word -/

@[simp] theorem fieldOp_commandWord (op a b : Byte) : fieldOp (commandWord op a b) = op :=
  BitVec.extractLsb'_append_eq_right

@[simp] theorem fieldA_commandWord (op a b : Byte) : fieldA (commandWord op a b) = a :=
  (BitVec.extractLsb'_append_eq_of_le (by decide)).trans BitVec.extractLsb'_append_eq_right

@[simp] theorem fieldB_commandWord (op a b : Byte) : fieldB (commandWord op a b) = b :=
  (BitVec.extractLsb'_append_eq_of_le (by decide)).trans <|
    (BitVec.extractLsb'_append_eq_of_le (by decide)).trans BitVec.extractLsb'_append_eq_right

@[simp] theorem fieldRsv_commandWord (op a b : Byte) : fieldRsv (commandWord op a b) = 0 :=
  (BitVec.extractLsb'_append_eq_of_le (by decide)).trans <|
    (BitVec.extractLsb'_append_eq_of_le (by decide)).trans BitVec.extractLsb'_append_eq_left

/-- A word is its four fields (30_encoding.md R80). -/
theorem fields_append (w : Word) : fieldRsv w ++ fieldB w ++ fieldA w ++ fieldOp w = w := by
  unfold fieldRsv fieldB fieldA fieldOp
  rw [BitVec.extractLsb'_append_extractLsb'_eq_extractLsb' (by rfl),
    BitVec.extractLsb'_append_extractLsb'_eq_extractLsb' (by rfl),
    BitVec.extractLsb'_append_extractLsb'_eq_extractLsb' (by rfl)]
  exact BitVec.extractLsb'_eq_self

/-- A word is a command word when its opcode and operand fields are these and RSV is 0. -/
theorem commandWord_eq {w : Word} {op : Nat} {a b : Byte} (ho : (fieldOp w).toNat = op) (ha : fieldA w = a)
    (hb : fieldB w = b) (hr : fieldRsv w = 0) : commandWord (BitVec.ofNat 8 op) a b = w := by
  have h := fields_append w
  rw [hr, hb, ha] at h
  rwa [← ho, BitVec.ofNat_toNat, BitVec.setWidth_eq]

/-- A[7:1] = 0 means that A is 0 or 1 (30_encoding.md R82). -/
theorem upperA_eq_zero {a : Byte} : a.extractLsb' 1 7 = 0 ↔ a.toNat < 2 := by
  rw [← BitVec.toNat_inj, BitVec.extractLsb'_toNat, Nat.shiftRight_eq_div_pow]
  simp only [BitVec.ofNat_eq_ofNat, BitVec.toNat_ofNat]
  omega

theorem needZero_eq_ok {ok : Bool} {i j : Instr} : needZero ok i = .ok j ↔ ok = true ∧ i = j := by
  unfold needZero
  cases ok <;> simp

/-! The three shapes of a row of 30_encoding.md R84: no operand, A, and A with B -/

section Rows

variable {w : Word} {op : Nat} {i j : Instr} (hop : (fieldOp w).toNat = op)
include hop

theorem row_without_operands (h : needZero (fieldA w == 0 && fieldB w == 0 && fieldRsv w == 0) j = .ok i) :
    j = i ∧ commandWord (BitVec.ofNat 8 op) 0 0 = w := by
  simp only [needZero_eq_ok, Bool.and_eq_true, beq_iff_eq] at h
  obtain ⟨⟨⟨ha, hb⟩, hr⟩, rfl⟩ := h
  exact ⟨rfl, commandWord_eq hop ha hb hr⟩

theorem row_with_a (h : needZero (fieldB w == 0 && fieldRsv w == 0) j = .ok i) :
    j = i ∧ commandWord (BitVec.ofNat 8 op) (fieldA w) 0 = w := by
  simp only [needZero_eq_ok, Bool.and_eq_true, beq_iff_eq] at h
  obtain ⟨⟨hb, hr⟩, rfl⟩ := h
  exact ⟨rfl, commandWord_eq hop rfl hb hr⟩

theorem row_with_a_b (h : needZero (fieldRsv w == 0) j = .ok i) :
    j = i ∧ commandWord (BitVec.ofNat 8 op) (fieldA w) (fieldB w) = w := by
  simp only [needZero_eq_ok, beq_iff_eq] at h
  obtain ⟨hr, rfl⟩ := h
  exact ⟨rfl, commandWord_eq hop rfl rfl hr⟩

end Rows

/-- A legal word is the word of the well-formed command it decodes to. -/
theorem wellFormed_and_encode_of_decode {w : Word} {i : Instr} (h : decode w = .ok i) :
    WellFormed i ∧ encode i = w := by
  unfold decode at h
  simp only at h
  split at h
  case h_2 hop | h_6 hop =>
    obtain ⟨rfl, hw⟩ := row_with_a_b hop h
    exact ⟨rfl, hw⟩
  case h_3 hop | h_5 hop | h_7 hop =>
    obtain ⟨rfl, hw⟩ := row_with_a hop h
    exact ⟨rfl, hw⟩
  case h_16 hop =>
    simp only [needZero_eq_ok, Bool.and_eq_true, beq_iff_eq] at h
    obtain ⟨⟨⟨ha, hb⟩, hr⟩, rfl⟩ := h
    exact ⟨decide_eq_true (upperA_eq_zero.mp ha), commandWord_eq hop rfl hb hr⟩
  case h_18 => cases h
  all_goals
    obtain ⟨rfl, hw⟩ := row_without_operands (by assumption) h
    exact ⟨rfl, hw⟩

/-- The word of a well-formed command decodes to it. -/
theorem decode_encode {i : Instr} (wf : WellFormed i) : decode (encode i) = .ok i := by
  cases i
  case cprDecode a =>
    have ha : a.extractLsb' 1 7 = 0 := upperA_eq_zero.mpr (of_decide_eq_true wf)
    simp only [encode, decode, fieldOp_commandWord, fieldA_commandWord, fieldB_commandWord, fieldRsv_commandWord, ha]
    rfl
  all_goals simp [encode, decode, needZero]

/-- The word of a well-formed command matches its row: the family TableRow, for every command. -/
theorem encode_matches_row {i : Instr} (wf : WellFormed i) : encode i &&& (tableRow i).2 = (tableRow i).1 :=
  match i with
  | .nop => Laws.TableRow.nop wf
  | .bvExtract start size => Laws.TableRow.bvExtract start size wf
  | .bvTestbit index => Laws.TableRow.bvTestbit index wf
  | .bsLength => Laws.TableRow.bsLength wf
  | .bsByteat index => Laws.TableRow.bsByteat index wf
  | .bsRange lo hi => Laws.TableRow.bsRange lo hi wf
  | .crcTable entry => Laws.TableRow.crcTable entry wf
  | .crcCompute => Laws.TableRow.crcCompute wf
  | .rfOf => Laws.TableRow.rfOf wf
  | .rfDf => Laws.TableRow.rfDf wf
  | .rfIcao => Laws.TableRow.rfIcao wf
  | .rfMe => Laws.TableRow.rfMe wf
  | .rfTc => Laws.TableRow.rfTc wf
  | .rfClass => Laws.TableRow.rfClass wf
  | .rfCprload => Laws.TableRow.rfCprload wf
  | .cprDecode a => Laws.TableRow.cprDecode a wf
  | .fifoPop => Laws.TableRow.fifoPop wf

/-- A legal word matches the row of the command it decodes to (30_encoding.md R82). -/
theorem decode_matches_row {w : Word} {i : Instr} (h : decode w = .ok i) : w &&& (tableRow i).2 = (tableRow i).1 := by
  obtain ⟨wf, rfl⟩ := wellFormed_and_encode_of_decode h
  exact encode_matches_row wf

/-! The command a write of CMD runs -/

theorem runCommand_of_decode {w : Word} {i : Instr} (s : State) (h : decode w = .ok i) :
    runCommand w s = exec i { s with cmd := w } := by
  simp only [runCommand, h]

theorem runCommand_of_no_row {w : Word} (s : State) (h : ∀ i, w &&& (tableRow i).2 ≠ (tableRow i).1) :
    runCommand w s = .next (raised .illegalCmd w { s with cmd := w }) := by
  cases hd : decode w with
  | ok i => exact absurd (decode_matches_row hd) (h i)
  | error e =>
    simp only [runCommand, hd]
    rfl

/-- With no fault recorded, a 4-byte write at 0x08 is the write of CMD (10_state.md R25). -/
theorem busWrite_cmd (w : Word) {s : State} (hf : s.fault = false) : busWrite .b4 0x08 w s = runCommand w s := by
  simp only [busWrite, hf, Bool.false_and]
  rfl

/-! The host's step -/

theorem step_read {s : State} {size : AccessSize} {addr : Byte} (ha : nextAgent s = .host)
    (hacc : nextAccess s = .read size addr) : step s = busRead size addr (accessed s) := by
  rw [step_host ha, hacc]
  rfl

theorem step_write {s : State} {size : AccessSize} {addr : Byte} {v : Word} (ha : nextAgent s = .host)
    (hacc : nextAccess s = .write size addr v) : step s = busWrite size addr v (accessed s) := by
  rw [step_host ha, hacc]
  rfl

/-- The step of a write of CMD with no fault recorded runs the command word. -/
theorem step_write_cmd {s : State} {w : Word} (ha : nextAgent s = .host) (hacc : nextAccess s = .write .b4 0x08 w)
    (hf : s.fault = false) : step s = runCommand w (accessed s) :=
  (step_write ha hacc).trans (busWrite_cmd w hf)

/-- Settles O5: a host's step is its access, and a write of CMD is `runCommand`. -/
theorem stepRunsTheDecodedCommand : Obligations.StepRunsTheDecodedCommand := by
  refine ⟨?_, ?_, ?_, ?_⟩
  · intro s w i ha hacc hf hd
    exact (step_write_cmd ha hacc hf).trans (runCommand_of_decode _ hd)
  · intro s w ha hacc hf hrow
    exact (step_write_cmd ha hacc hf).trans (runCommand_of_no_row _ hrow)
  · intro s size addr
    exact step_read
  · intro s size addr v
    exact step_write

/-- Placing the word of a command places a host's write of it. -/
theorem withFetchWord_encode (s : State) (i : Instr) :
    s.withFetchWord 32 (encode i).toNat = placeCommand (encode i) s := by
  rw [State.withFetchWord, Nat.mod_eq_of_lt (encode i).isLt, BitVec.ofNat_toNat, BitVec.setWidth_eq]

/-- Settles O6: the placed write is the next access, its word decodes to the command, and using it up gives back
what was placed before. -/
theorem placedCommandRunsNext : Obligations.PlacedCommandRunsNext := by
  intro s i wf hf
  rw [withFetchWord_encode, step_write_cmd (s := placeCommand (encode i) s) rfl rfl hf,
    runCommand_of_decode _ (decode_encode wf)]
  rfl

end Sys2Proof.Machine
end

section
/-!
PROOFS. The registers as the host reads and writes them (O29, O31, O32, O33, O38).
-/

namespace Sys2Proof.Machine

open Sys2Proof.Claims

/-! Reset -/

/-- Settles O29: register by register, then field by field. -/
theorem resetGivesEveryPieceOfStateItsValue : Obligations.ResetGivesEveryPieceOfStateItsValue := by
  have hregs : ∀ r : Reg, readReg r State.reset = 0 := by
    intro r
    cases r <;> decide
  exact ⟨hregs, rfl, by decide, rfl, by decide, rfl, rfl, rfl, rfl, by decide, rfl, rfl, rfl, rfl, rfl, rfl, rfl, rfl,
    rfl, rfl, fun _ => rfl⟩

/-! Reads and writes at the offset of a register -/

/-- A 4-byte read at a register's offset returns the register and changes nothing else (20_memory.md R61). -/
theorem busRead_offset (r : Reg) (s : State) : busRead .b4 r.offset s = .next (returnData (readReg r s) s) := by
  simp only [busRead, accessReg_eq_some.mpr ⟨rfl, rfl⟩]

/-- A 4-byte write at a register's offset acts on that register, unless a fault is recorded and it is not CTRL
(60_exceptions.md R266). -/
theorem busWrite_offset (r : Reg) (v : Word) {s : State} (h : s.fault = false ∨ r = .ctrl) :
    busWrite .b4 r.offset v s = writeReg r r.offset v s := by
  have hacts : (s.fault && !decide (r.offset = 0x00 ∧ AccessSize.b4 = .b4)) = false := by
    rcases h with h | rfl
    · simp [h]
    · simp [Reg.offset]
  unfold busWrite
  rw [hacts, accessReg_eq_some.mpr ⟨rfl, rfl⟩]
  rfl

/-! CTRL and BLEN -/

/-- CTRL reads DEMOD_EN in bit 0 and 0 elsewhere (10_state.md R23). -/
theorem ctrlWord_eq_and_one {s : State} {v : Word} (h : s.demodEn = v.getLsbD 0) : ctrlWord s = v &&& 1 := by
  rw [ctrlWord, h, BitVec.ofNat_eq_ofNat, BitVec.and_one_eq_setWidth_ofBool_getLsbD]
  cases v.getLsbD 0 <;> rfl

/-- Settles O31: the write reaches CTRL in every state, and without SRST stores DEMOD_EN. -/
theorem ctrlStoresTheEnable : Obligations.CtrlStoresTheEnable := by
  intro s v hv
  refine ⟨{ s with demodEn := v.getLsbD 0 }, ?_, rfl, ctrlWord_eq_and_one rfl⟩
  have hw : writeCtrl v s = { s with demodEn := v.getLsbD 0 } := by simp only [writeCtrl, hv]; rfl
  exact (busWrite_offset .ctrl v (.inr rfl)).trans (congrArg _ hw)

/-- Settles O38, by the two cases of `writeBlen`. -/
theorem blenTakesZeroToSixteen : Obligations.BlenTakesZeroToSixteen := by
  intro v s hf
  have hw : busWrite .b4 0x28 v s = .next (writeBlen v s) := busWrite_offset .blen v (.inl hf)
  rw [hw]
  obtain ⟨n, hn, hb⟩ | ⟨hgt, hb⟩ := writeBlen_cases v s
  · refine ⟨fun _ => ⟨{ s with blen := n }, by rw [hb], hn, rfl, ?_⟩, fun hgt => by omega⟩
    show BitVec.ofNat 32 n.val = v
    rw [hn, BitVec.ofNat_toNat, BitVec.setWidth_eq]
  · exact ⟨fun hle => by omega, fun _ => by rw [hb]; rfl⟩

/-! STATUS -/

/-- STATUS put together bit by bit below its reserved bits. -/
theorem statusWord_eq_concat (s : State) : statusWord s =
    (((((fifoCount s ++ s.faultCause.code ++ 0#3).concat s.eos).concat s.done).concat s.frValid).concat
      s.present).concat s.fault := rfl

/-- Bits from `i + 1` on are bits from `i` on of what stands above the lowest bit. -/
theorem extractLsb'_succ_concat {w i len : Nat} (x : BitVec w) (b : Bool) :
    (x.concat b).extractLsb' (i + 1) len = x.extractLsb' i len := by
  ext j hj
  simp [Nat.add_right_comm i 1 j]

/-- The fields of STATUS above its five flags. -/
theorem statusWord_extract (s : State) (i len : Nat) :
    (statusWord s).extractLsb' (i + 5) len = (fifoCount s ++ s.faultCause.code ++ 0#3).extractLsb' i len := by
  simp only [statusWord_eq_concat, extractLsb'_succ_concat]

theorem statusWord_reserved (s : State) : (statusWord s).extractLsb' 5 3 = 0 :=
  (statusWord_extract s 0 3).trans BitVec.extractLsb'_append_eq_right

theorem statusWord_cause (s : State) : (statusWord s).extractLsb' 8 8 = s.faultCause.code :=
  (statusWord_extract s 3 8).trans <|
    (BitVec.extractLsb'_append_eq_of_le le_rfl).trans BitVec.extractLsb'_append_eq_right

theorem statusWord_count (s : State) : (statusWord s).extractLsb' 16 16 = fifoCount s :=
  (statusWord_extract s 11 16).trans <|
    (BitVec.extractLsb'_append_eq_of_le (by decide)).trans BitVec.extractLsb'_append_eq_left

/-- Settles O33: the flags bit by bit, then the fields above them. -/
theorem statusShowsItsFields : Obligations.StatusShowsItsFields := by
  refine ⟨Config.fifoDepthLessOne.isLt, by intro c; cases c <;> decide, fun s => ⟨busRead_offset .status s, ?_⟩⟩
  simp only [readReg, statusWord_reserved, statusWord_cause, statusWord_count]
  refine ⟨?_, ?_, ?_, ?_, ?_, trivial, trivial, fun hlen => ?_⟩
  case refine_6 => exact Nat.mod_eq_of_lt (Nat.lt_succ_of_le hlen)
  all_goals
    simp only [statusWord_eq_concat, BitVec.getLsbD_concat]
    rfl

/-! The value of each register in plain arithmetic -/

theorem loHalf_eq (v : DWord) : loHalf v = BitVec.ofNat 32 (v.toNat % 2 ^ 32) := by
  rw [← BitVec.toNat_inj]
  simp [loHalf]

theorem hiHalf_eq (v : DWord) : hiHalf v = BitVec.ofNat 32 (v.toNat / 2 ^ 32) := by
  rw [← BitVec.toNat_inj]
  simp [hiHalf, Nat.shiftRight_eq_div_pow]

/-- A byte appended below a bit vector is one more base-256 digit of its value. -/
theorem toNat_append_byte {w : Nat} (x : BitVec w) (b : Byte) : (x ++ b).toNat = x.toNat * 256 + b.toNat := by
  rw [BitVec.toNat_append, ← Nat.shiftLeft_add_eq_or_of_lt b.isLt, Nat.shiftLeft_eq]

/-- A packed register is its four bytes as base-256 digits, the first the highest (10_state.md R31). -/
theorem packBytes_eq (b0 b1 b2 b3 : Byte) : packBytes b0 b1 b2 b3 =
    BitVec.ofNat 32 (((b0.toNat * 256 + b1.toNat) * 256 + b2.toNat) * 256 + b3.toNat) := by
  have h : (b0 ++ b1 ++ b2 ++ b3).toNat = ((b0.toNat * 256 + b1.toNat) * 256 + b2.toNat) * 256 + b3.toNat := by
    simp only [toNat_append_byte]
  rw [← h, BitVec.ofNat_toNat]
  exact (BitVec.setWidth_eq _).symm

/-- One more byte is one more base-256 digit of a big-endian number. -/
theorem beNat_succ (bs : List Byte) {lo hi : Nat} (h : lo ≤ hi) :
    beNat bs lo (hi + 1) = beNat bs lo hi * 256 + (bs.getD hi 0).toNat := by
  unfold beNat
  rw [Finset.sum_Ico_succ_top h, Finset.sum_mul]
  congr 1
  · refine Finset.sum_congr rfl fun j hj => ?_
    have hj := (Finset.mem_Ico.mp hj).2
    rw [Nat.mul_assoc, ← pow_succ]
    congr 2
    omega
  · simp

theorem beNat_self (bs : List Byte) (i : Nat) : beNat bs i i = 0 := by
  simp [beNat]

theorem getD_toList {n : Nat} (v : Vector Byte n) {i : Nat} (h : i < n) : v.toList.getD i 0 = v[i] := by
  simp [h]

/-- A packed register is the big-endian number of its bytes. -/
theorem packBytes_getElem {n : Nat} (v : Vector Byte n) (i : Nat) (h : i + 3 < n) :
    packBytes v[i] v[i + 1] v[i + 2] v[i + 3] = BitVec.ofNat 32 (beNat v.toList i (i + 4)) := by
  simp only [← getD_toList]
  rw [packBytes_eq, beNat_succ _ (by omega), beNat_succ _ (by omega), beNat_succ _ (by omega), beNat_succ _ le_rfl,
    beNat_self, Nat.zero_mul, Nat.zero_add]

/-- FR_W3 holds the frame's last two bytes in its upper half. -/
theorem packBytes_getElem_zero {n : Nat} (v : Vector Byte n) (i : Nat) (h : i + 1 < n) :
    packBytes v[i] v[i + 1] 0 0 = BitVec.ofNat 32 (beNat v.toList i (i + 2) * 2 ^ 16) := by
  have h0 : (0 : Byte).toNat = 0 := rfl
  simp only [← getD_toList]
  rw [packBytes_eq, beNat_succ _ (by omega), beNat_succ _ le_rfl, beNat_self, h0]
  exact congrArg _ (by omega)

/-- The registers whose values `registerValues` lists, in its order. -/
def valuedRegs : List Reg :=
  [.ctrl, .cmd, .faultInfo, .opaLo, .opaHi, .resLo, .resHi, .tsLo, .tsHi, .blen, .bbuf0, .bbuf1, .bbuf2, .bbuf3,
   .cprX0, .cprY0, .cprX1, .cprY1, .frTsLo, .frTsHi, .frW0, .frW1, .frW2, .frW3, .posLo, .posHi]

theorem ctrlWord_eq (s : State) : ctrlWord s = if s.demodEn then 1 else 0 := by
  unfold ctrlWord
  cases s.demodEn <;> rfl

/-- The listed values are what the model's registers read as, each at its offset. -/
theorem registerValues_eq (s : State) : registerValues s = valuedRegs.map fun r => (r.offset, readReg r s) := by
  have hbuf : ∀ k : Fin 4, bbufWord k s = BitVec.ofNat 32 (beNat s.bbuf.toList (4 * k.val) (4 * k.val + 4)) :=
    fun k => packBytes_getElem s.bbuf (4 * k.val) (by omega)
  have hframe : ∀ k (h : 4 * k + 3 < 14), packBytes s.fr.bytes[4 * k] s.fr.bytes[4 * k + 1] s.fr.bytes[4 * k + 2]
      s.fr.bytes[4 * k + 3] = BitVec.ofNat 32 (beNat s.fr.bytes.toList (4 * k) (4 * k + 4)) :=
    fun k => packBytes_getElem s.fr.bytes (4 * k)
  simp only [registerValues, valuedRegs, List.map_cons, List.map_nil, Reg.offset, readReg, ctrlWord_eq, loHalf_eq,
    hiHalf_eq, hbuf, BitVec.ofNat_toNat]
  rw [← hframe 0 (by omega), ← hframe 1 (by omega), ← hframe 2 (by omega),
    ← packBytes_getElem_zero s.fr.bytes 12 (by omega)]
  rfl

/-- Settles O32: every listed value is a register's, and is read at that register's offset. -/
theorem everyOffsetReadsItsRegister : Obligations.EveryOffsetReadsItsRegister := by
  intro s addr v h
  rw [registerValues_eq, List.mem_map] at h
  obtain ⟨r, -, hr⟩ := h
  cases hr
  exact busRead_offset r s

end Sys2Proof.Machine
end

section
/-!
PROOFS. The register space as the host reaches it: legal reads, illegal accesses, and the registers whose write only
stores its value (O34, O35, O37).
-/

namespace Sys2Proof.Machine

open Sys2Proof.Claims

/-! The legal offsets -/

/-- The mapped offsets are the offsets of the registers (10_state.md R22). -/
theorem mapped_iff {addr : Byte} : mapped addr ↔ ∃ r : Reg, addr = r.offset := by
  have hfound : ∀ n : Fin 256, n.val % 4 = 0 ∧ n.val ≤ 0x6C ∧ n.val ≠ 0x2C → regAt (BitVec.ofFin n) ≠ none := by
    decide +kernel
  constructor
  · intro h
    obtain ⟨r, hr⟩ := Option.ne_none_iff_exists'.mp (hfound addr.toFin h)
    exact ⟨r, regAt_eq_some.mp hr⟩
  · rintro ⟨r, rfl⟩
    unfold mapped
    cases r <;> decide

/-- An access reaches no register exactly when its size or its offset is illegal (20_memory.md R61). -/
theorem accessReg_eq_none {size : AccessSize} {addr : Byte} :
    accessReg size addr = none ↔ ¬ (size = .b4 ∧ mapped addr) := by
  simp only [Option.eq_none_iff_forall_ne_some, ne_eq, accessReg_eq_some, mapped_iff, not_and, not_exists]
  exact forall_comm

/-! Legal reads -/

/-- No register shows the value last read. -/
theorem readReg_readData (r : Reg) (v : Option Word) (s : State) : readReg r { s with readData := v } = readReg r s := by
  cases r <;> rfl

/-- Settles O34: a mapped offset is a register's, and the read leaves that register as it was. -/
theorem legalReadsHaveNoSideEffect : Obligations.LegalReadsHaveNoSideEffect := by
  intro addr s h
  obtain ⟨r, rfl⟩ := mapped_iff.mp h
  refine ⟨readReg r s, busRead_offset r s, ?_⟩
  rw [busRead_offset, readReg_readData]
  rfl

/-! Illegal accesses -/

/-- The fault information word of a bad access in plain arithmetic (10_state.md R26). -/
theorem busInfo_eq (isWrite : Bool) (size : AccessSize) (addr : Byte) :
    busInfo isWrite size addr = badInfo isWrite.toNat size addr := by
  have hhead : (1#1 ++ BitVec.ofBool isWrite ++ 0#18 ++ accessBytes size).toNat * 256 =
      0x80000000 + isWrite.toNat * 0x40000000 + sizeBytes size * 0x100 := by
    cases isWrite <;> cases size <;> rfl
  rw [badInfo, ← hhead, ← toNat_append_byte, BitVec.ofNat_toNat]
  exact (BitVec.setWidth_eq _).symm

theorem badWrite_eq (size : AccessSize) (addr : Byte) (s : State) :
    badWrite size addr s = .next (raised .badReg (badInfo 1 size addr) s) := by
  rw [badWrite, busInfo_eq]
  rfl

/-- A read that reaches no register returns 0 and faults (20_memory.md R62, R64). -/
theorem busRead_of_accessReg_none {size : AccessSize} {addr : Byte} {s : State} (hf : s.fault = false)
    (h : accessReg size addr = none) :
    busRead size addr s = .next { raised .badReg (badInfo 0 size addr) s with readData := some 0 } := by
  simp only [busRead, h, hf, busInfo_eq]
  rfl

/-- A write that reaches no register faults (20_memory.md R62, R64). -/
theorem busWrite_of_accessReg_none {size : AccessSize} {addr : Byte} {s : State} (v : Word) (hf : s.fault = false)
    (h : accessReg size addr = none) : busWrite size addr v s = badWrite size addr s := by
  simp only [busWrite, h, hf, Bool.false_and]
  rfl

/-- A write of a read-only register faults (20_memory.md R63). -/
theorem writeReg_readOnly {r : Reg} (addr : Byte) (v : Word) (s : State) (h : r.offset ∈ readOnlyOffsets) :
    writeReg r addr v s = badWrite .b4 addr s := by
  cases r
  case status | faultInfo | resLo | resHi | frTsLo | frTsHi | frW0 | frW1 | frW2 | frW3 | posLo | posHi => rfl
  all_goals exact absurd h (by decide)

theorem mapped_of_readOnly : ∀ addr ∈ readOnlyOffsets, mapped addr := by
  unfold mapped
  decide

/-- Settles O35: an illegal access reaches no register, and a read-only register only faults. -/
theorem illegalAccessesFaultBadReg : Obligations.IllegalAccessesFaultBadReg := by
  refine ⟨fun size addr s hf hill => ?_, fun addr v s hf hro => ?_, fun _ _ => rfl⟩
  · have hnone := accessReg_eq_none.mpr hill
    exact ⟨busRead_of_accessReg_none hf hnone,
      fun v => (busWrite_of_accessReg_none v hf hnone).trans (badWrite_eq size addr s)⟩
  · obtain ⟨r, rfl⟩ := mapped_iff.mp (mapped_of_readOnly addr hro)
    rw [busWrite_offset r v (.inl hf), writeReg_readOnly _ v s hro, badWrite_eq]

/-! What the operand fields hold after a write -/

@[simp] theorem loHalf_withLo (v : DWord) (w : Word) : loHalf (withLo v w) = w :=
  BitVec.extractLsb'_append_eq_right

@[simp] theorem hiHalf_withLo (v : DWord) (w : Word) : hiHalf (withLo v w) = hiHalf v :=
  BitVec.extractLsb'_append_eq_left

@[simp] theorem loHalf_withHi (v : DWord) (w : Word) : loHalf (withHi v w) = loHalf v :=
  BitVec.extractLsb'_append_eq_right

@[simp] theorem hiHalf_withHi (v : DWord) (w : Word) : hiHalf (withHi v w) = w :=
  BitVec.extractLsb'_append_eq_left

/-- Unpacking a register into its four bytes and packing them again gives it back. -/
theorem packBytes_wordByte (v : Word) : packBytes (wordByte v 0) (wordByte v 1) (wordByte v 2) (wordByte v 3) = v := by
  have hv := v.isLt
  rw [packBytes_eq, ← BitVec.toNat_inj]
  simp only [wordByte, BitVec.extractLsb'_toNat, BitVec.toNat_ofNat, Nat.shiftRight_eq_div_pow]
  omega

/-- A write of BBUFk sets that word of the byte buffer and leaves the others (10_state.md R31). -/
@[simp] theorem bbufWord_setBbufWord (j k : Fin 4) (v : Word) (s : State) :
    bbufWord j (setBbufWord k v s) = if j = k then v else bbufWord j s := by
  have hdiv : ∀ i < 4, (4 * j.val + i) / 4 = j.val := by omega
  simp only [bbufWord, setBbufWord, bytesWithWord, Vector.getElem_ofFn, Nat.mul_add_mod, Nat.mul_mod_right,
    Nat.mul_div_cancel_left j.val (show 0 < 4 by decide), hdiv 1 (by decide), hdiv 2 (by decide), hdiv 3 (by decide),
    Fin.ext_iff]
  split_ifs
  · exact packBytes_wordByte v
  · rfl

/-! A write of BBUFk leaves the other operand fields. -/

section
variable (k : Fin 4) (v : Word) (s : State)

@[simp] theorem setBbufWord_opa : (setBbufWord k v s).opa = s.opa := by simp only [setBbufWord]
@[simp] theorem setBbufWord_ts : (setBbufWord k v s).ts = s.ts := by simp only [setBbufWord]
@[simp] theorem setBbufWord_cprX0 : (setBbufWord k v s).cprX0 = s.cprX0 := by simp only [setBbufWord]
@[simp] theorem setBbufWord_cprY0 : (setBbufWord k v s).cprY0 = s.cprY0 := by simp only [setBbufWord]
@[simp] theorem setBbufWord_cprX1 : (setBbufWord k v s).cprX1 = s.cprX1 := by simp only [setBbufWord]
@[simp] theorem setBbufWord_cprY1 : (setBbufWord k v s).cprY1 = s.cprY1 := by simp only [setBbufWord]

end

/-- A CPR register keeps the low 17 bits of the value written (10_state.md R32, R34). -/
theorem setWidth_cprField (v : Word) : (v.setWidth 17).setWidth 32 = v &&& 0x1FFFF := by
  rw [← BitVec.toNat_inj, BitVec.toNat_and]
  simp only [BitVec.toNat_setWidth]
  exact (Nat.mod_eq_of_lt (by omega)).trans (Nat.and_two_pow_sub_one_eq_mod v.toNat 17).symm

theorem and_fullMask (v : Word) : v &&& 0xFFFFFFFF#32 = v :=
  BitVec.and_allOnes

/-! Writes of the plain registers -/

/-- What a write of a plain register may change (20_memory.md R66): the operand fields but BLEN. -/
def SameButPlain (s t : State) : Prop :=
  t = { s with
    opa := t.opa
    ts := t.ts
    bbuf := t.bbuf
    cprX0 := t.cprX0
    cprY0 := t.cprY0
    cprX1 := t.cprX1
    cprY1 := t.cprY1 }

/-- The twelve plain registers: halves of pairs, words of the byte buffer, CPR fields. -/
theorem plainRegs_cases {r : Reg} {keep : Word} (h : (r, keep) ∈ plainRegs) :
    (r = .opaLo ∨ r = .opaHi ∨ r = .tsLo ∨ r = .tsHi) ∨ (r = .bbuf0 ∨ r = .bbuf1 ∨ r = .bbuf2 ∨ r = .bbuf3) ∨
      (r = .cprX0 ∨ r = .cprY0 ∨ r = .cprX1 ∨ r = .cprY1) := by
  simp only [plainRegs, List.mem_cons, Prod.mk.injEq, List.not_mem_nil, or_false] at h
  tauto

/-- A write of a plain register stores and cannot fault. -/
theorem writeReg_plain {r : Reg} {keep : Word} (addr : Byte) (v : Word) (s : State) (h : (r, keep) ∈ plainRegs) :
    ∃ t, writeReg r addr v s = .next t ∧ SameButPlain s t := by
  obtain (rfl | rfl | rfl | rfl) | (rfl | rfl | rfl | rfl) | (rfl | rfl | rfl | rfl) := plainRegs_cases h
  all_goals exact ⟨_, rfl, by simp only [SameButPlain, setBbufWord]⟩

/-- What each plain register reads as after a write of one of them: the written one the bits it keeps, the others
what they read before. -/
theorem readReg_writeReg_plain {r : Reg} {keep : Word} {addr : Byte} {v : Word} {s t : State}
    (h : (r, keep) ∈ plainRegs) (hw : writeReg r addr v s = .next t) :
    ∀ p ∈ plainRegs, readReg p.1 t = if p.1 = r then v &&& p.2 else readReg p.1 s := by
  obtain hr | hr | hr := plainRegs_cases h
  · obtain rfl | rfl | rfl | rfl := hr
    all_goals
      cases hw
      simp [plainRegs, readReg, bbufWord, and_fullMask]
  · obtain rfl | rfl | rfl | rfl := hr
    all_goals
      cases hw
      simp [plainRegs, readReg, and_fullMask]
  · obtain rfl | rfl | rfl | rfl := hr
    all_goals
      cases hw
      simp [plainRegs, readReg, bbufWord, setWidth_cprField]

/-- Every register is a plain one or shows nothing a write of a plain one may change. -/
theorem plain_or_readReg_eq {s t : State} (h : SameButPlain s t) (r : Reg) :
    (∃ keep, (r, keep) ∈ plainRegs) ∨ readReg r t = readReg r s := by
  unfold SameButPlain at h
  cases r
  case opaLo | opaHi | tsLo | tsHi | bbuf0 | bbuf1 | bbuf2 | bbuf3 | cprX0 | cprY0 | cprX1 | cprY1 =>
    exact .inl (by simp [plainRegs])
  all_goals exact .inr (by rw [h]; rfl)

/-- Settles O37, by the effect of the write on the plain registers and its frame on the others. -/
theorem plainRegistersReadBackWhatWasWritten : Obligations.PlainRegistersReadBackWhatWasWritten := by
  intro addr r keep v s hf hr hp
  obtain rfl := regAt_eq_some.mp hr
  obtain ⟨t, hw, hsame⟩ := writeReg_plain r.offset v s hp
  have hread := readReg_writeReg_plain hp hw
  refine ⟨t, (busWrite_offset r v (.inl hf)).trans hw, (hread _ hp).trans (if_pos rfl), fun r' hr' => ?_, hsame⟩
  obtain ⟨keep', hp'⟩ | hkeeps := plain_or_readReg_eq hsame r'
  · exact (hread _ hp').trans (if_neg hr')
  · exact hkeeps

end Sys2Proof.Machine
end

section
/-!
PROOFS. Encoding: the decoder against the encoder and against the rows of the opcode table (O1, O2, O3, O4).
-/

namespace Sys2Proof.Machine

open Sys2Proof.Claims

/-- Settles O1, by the fields of a command word. -/
theorem decodeOfEncodeIsTheCommand : Obligations.DecodeOfEncodeIsTheCommand :=
  fun _ wf => decode_encode wf

/-- Settles O2, by the shape of the row each legal opcode selects. -/
theorem encodeOfDecodeIsTheWord : Obligations.EncodeOfDecodeIsTheWord :=
  fun _ _ h => wellFormed_and_encode_of_decode h

/-! From a matched row to the word of a command: the mask checks each field of the word by its own byte -/

theorem fieldOp_and (v w : Word) : fieldOp (v &&& w) = fieldOp v &&& fieldOp w := BitVec.extractLsb'_and

theorem fieldA_and (v w : Word) : fieldA (v &&& w) = fieldA v &&& fieldA w := BitVec.extractLsb'_and

theorem fieldB_and (v w : Word) : fieldB (v &&& w) = fieldB v &&& fieldB w := BitVec.extractLsb'_and

theorem fieldRsv_and (v w : Word) : fieldRsv (v &&& w) = fieldRsv v &&& fieldRsv w := BitVec.extractLsb'_and

section Masks

variable {w mask : Word} {op : Byte} (h : w &&& mask = commandWord op 0 0)
include h

theorem fieldOp_of_match (hm : fieldOp mask = 0xFF) : fieldOp w = op := by
  have hop := fieldOp_and w mask
  rw [h, hm, fieldOp_commandWord] at hop
  exact (hop.trans BitVec.and_allOnes).symm

theorem fieldB_of_match (hm : fieldB mask = 0xFF) : fieldB w = 0 := by
  have hb := fieldB_and w mask
  rw [h, hm, fieldB_commandWord] at hb
  exact (hb.trans BitVec.and_allOnes).symm

theorem fieldRsv_of_match (hm : fieldRsv mask = 0xFF) : fieldRsv w = 0 := by
  have hr := fieldRsv_and w mask
  rw [h, hm, fieldRsv_commandWord] at hr
  exact (hr.trans BitVec.and_allOnes).symm

theorem fieldA_lt_two_of_match (hm : fieldA mask = 0xFE) : (fieldA w).toNat < 2 := by
  have ha := fieldA_and w mask
  rw [h, hm, fieldA_commandWord] at ha
  have hupper := congrArg (BitVec.extractLsb' 1 7) ha
  rw [BitVec.extractLsb'_and] at hupper
  exact upperA_eq_zero.mp (hupper.trans BitVec.and_allOnes).symm

/-- Every row checks the opcode and RSV. -/
theorem commandWord_of_match (hop : fieldOp mask = 0xFF) (hr : fieldRsv mask = 0xFF) :
    commandWord op (fieldA w) (fieldB w) = w := by
  have hw := commandWord_eq (w := w) rfl rfl rfl (fieldRsv_of_match h hr)
  rwa [BitVec.ofNat_toNat, BitVec.setWidth_eq, fieldOp_of_match h hop] at hw

end Masks

/-! The three masks of the rows with an operand -/

theorem commandWord_of_match_a_b {w : Word} {op : Byte} (h : w &&& 0xFF0000FF = commandWord op 0 0) :
    commandWord op (fieldA w) (fieldB w) = w :=
  commandWord_of_match h (by rfl) (by rfl)

theorem commandWord_of_match_a {w : Word} {op : Byte} (h : w &&& 0xFFFF00FF = commandWord op 0 0) :
    commandWord op (fieldA w) 0 = w := by
  have hw := commandWord_of_match h (by rfl) (by rfl)
  rwa [fieldB_of_match h (by rfl)] at hw

theorem commandWord_of_match_mr {w : Word} {op : Byte} (h : w &&& 0xFFFFFEFF = commandWord op 0 0) :
    commandWord op (fieldA w) 0 = w ∧ (fieldA w).toNat < 2 := by
  have hw := commandWord_of_match h (by rfl) (by rfl)
  rw [fieldB_of_match h (by rfl)] at hw
  exact ⟨hw, fieldA_lt_two_of_match h (by rfl)⟩

/-- A word that matches a row is the word of a well-formed command of that row (30_encoding.md R82, R84). -/
theorem exists_encode_of_match {w : Word} {i : Instr} (h : w &&& (tableRow i).2 = (tableRow i).1) :
    ∃ j, tableRow j = tableRow i ∧ WellFormed j ∧ encode j = w := by
  cases i
  case bvExtract => exact ⟨.bvExtract (fieldA w) (fieldB w), rfl, rfl, commandWord_of_match_a_b h⟩
  case bsRange => exact ⟨.bsRange (fieldA w) (fieldB w), rfl, rfl, commandWord_of_match_a_b h⟩
  case bvTestbit => exact ⟨.bvTestbit (fieldA w), rfl, rfl, commandWord_of_match_a h⟩
  case bsByteat => exact ⟨.bsByteat (fieldA w), rfl, rfl, commandWord_of_match_a h⟩
  case crcTable => exact ⟨.crcTable (fieldA w), rfl, rfl, commandWord_of_match_a h⟩
  case cprDecode =>
    obtain ⟨hw, hlt⟩ := commandWord_of_match_mr (op := 0x30) h
    exact ⟨.cprDecode (fieldA w), rfl, decide_eq_true hlt, hw⟩
  all_goals exact ⟨_, rfl, rfl, h.symm.trans (and_fullMask w)⟩

/-- Settles O3: legality both ways through the word of the command, then the write of CMD. -/
theorem wordIsLegalExactlyWhenItMatchesARow : Obligations.WordIsLegalExactlyWhenItMatchesARow := by
  refine ⟨fun _ _ => decode_matches_row, fun w i h => ?_, fun _ => runCommand_of_no_row,
    fun _ s _ => runCommand_of_decode s, fun w _ => busWrite_cmd w⟩
  obtain ⟨j, hrow, wf, rfl⟩ := exists_encode_of_match h
  exact ⟨j, decode_encode wf, hrow⟩

/-- Settles O4: each word evaluates. -/
theorem specWordsDecodeAsTheSpecSays : Obligations.SpecWordsDecodeAsTheSpecSays :=
  ⟨rfl, rfl, rfl, rfl, rfl, rfl, rfl, rfl, rfl⟩

end Sys2Proof.Machine
end

section
/-!
PROOFS. The BitView commands (O9, O10, O11, O12, O13, O14) and the frame of every command (O23).
-/

namespace Sys2Proof.Machine

open Sys2Proof.Claims

/-! The word of a command in plain arithmetic -/

/-- The word of a well-formed command is its one word. -/
theorem encodedAs_of_encode {i : Instr} {w : Word} (wf : WellFormed i) (hw : encode i = w) : encodedAs i w := by
  intro v
  constructor
  · intro hv
    rw [← hw, (wellFormed_and_encode_of_decode hv).2]
  · rintro rfl
    rw [← hw]
    exact decode_encode wf

/-- A command word is OP | A << 8 | B << 16 (30_encoding.md R83). -/
theorem commandWord_eq_ofNat (op a b : Byte) :
    commandWord op a b = BitVec.ofNat 32 (op.toNat + 0x100 * a.toNat + 0x10000 * b.toNat) := by
  have h0 : (0 : Byte).toNat = 0 := rfl
  refine (packBytes_eq 0 b a op).trans (congrArg _ ?_)
  omega

/-! OPA -/

/-- A word shifted right and masked is the quotient by the one power of two modulo the other. -/
theorem shiftRight_and_mask_eq (v : DWord) (start : Nat) {size : Nat} (h : size < 64) :
    (v >>> start) &&& ((1#64 <<< size) - 1#64) = BitVec.ofNat 64 (v.toNat / 2 ^ start % 2 ^ size) := by
  have hpow : 2 ^ size < 2 ^ 64 := Nat.pow_lt_pow_right (by decide) h
  have hpos : 0 < 2 ^ size := Nat.two_pow_pos size
  have hmask : ((1#64 <<< size) - 1#64).toNat = 2 ^ size - 1 := by
    simp only [BitVec.toNat_sub, BitVec.toNat_shiftLeft, BitVec.toNat_ofNat, Nat.shiftLeft_eq]
    omega
  apply BitVec.eq_of_toNat_eq
  rw [BitVec.toNat_and, hmask, Nat.and_two_pow_sub_one_eq_mod, BitVec.toNat_ushiftRight, Nat.shiftRight_eq_div_pow,
    BitVec.toNat_ofNat, Nat.mod_eq_of_lt ((Nat.mod_lt _ hpos).trans hpow)]

/-- A word shifted right and masked to one bit is that bit. -/
theorem shiftRight_and_one_eq (v : DWord) (i : Nat) : (v >>> i) &&& 1#64 = if v.getLsbD i then 1 else 0 := by
  rw [BitVec.and_one_eq_setWidth_ofBool_getLsbD, BitVec.getLsbD_ushiftRight, Nat.add_zero]
  cases v.getLsbD i <;> rfl

theorem execBvExtract_of_legal {start size : Byte} (s : State) (hpos : 0 < size.toNat) (hlt : size.toNat < 32)
    (hend : start.toNat + size.toNat ≤ 64) : execBvExtract start size s =
      .next (presented ((s.opa >>> start.toNat) &&& ((1#64 <<< size.toNat) - 1#64)) s) := by
  rw [execBvExtract, if_neg (not_not.mpr ⟨hpos, hlt⟩), if_neg (by omega)]
  rfl

theorem execBvExtract_of_illegal {start size : Byte} (s : State)
    (h : size.toNat = 0 ∨ 32 ≤ size.toNat ∨ 64 < start.toNat + size.toNat) :
    execBvExtract start size s = .next (raised .fieldRange s.cmd s) := by
  unfold execBvExtract
  split
  · rfl
  · rw [if_pos (by omega)]
    rfl

/-- Settles O9, by the two checks of BV_EXTRACT. -/
theorem bvExtractGivesTheFieldOrFaults : Obligations.BvExtractGivesTheFieldOrFaults := by
  intro start size s
  refine ⟨encodedAs_of_encode rfl (commandWord_eq_ofNat 0x01 start size), fun hpos hlt hend => ?_,
    execBvExtract_of_illegal s⟩
  rw [← shiftRight_and_mask_eq _ _ (by omega)]
  exact execBvExtract_of_legal s hpos hlt hend

theorem execBvTestbit_of_lt {index : Byte} (s : State) (h : index.toNat < 64) :
    execBvTestbit index s = .next (presented ((s.opa >>> index.toNat) &&& 1#64) s) :=
  if_neg (by omega)

theorem execBvTestbit_of_le {index : Byte} (s : State) (h : 64 ≤ index.toNat) :
    execBvTestbit index s = .next (raised .bitIndex s.cmd s) :=
  if_pos h

/-- Settles O10, by the one check of BV_TESTBIT. -/
theorem bvTestbitGivesTheBitOrFaults : Obligations.BvTestbitGivesTheBitOrFaults := by
  intro index s
  refine ⟨encodedAs_of_encode rfl (commandWord_eq_ofNat 0x02 index 0), fun h => ?_, execBvTestbit_of_le s⟩
  rw [← shiftRight_and_one_eq]
  exact execBvTestbit_of_lt s h

/-! The byte sequence -/

theorem execBsByteat_of_lt {index : Byte} (s : State) (h : index.toNat < s.blen.val) : execBsByteat index s =
    .next (presented ((s.bbuf.toList.getD index.toNat 0).setWidth 64) s) :=
  if_neg (by omega)

theorem execBsByteat_of_le {index : Byte} (s : State) (h : s.blen.val ≤ index.toNat) :
    execBsByteat index s = .next (raised .byteIndex s.cmd s) :=
  if_pos h

/-- An index of the byte sequence is one of BBUF (10_state.md R30). -/
theorem lt_sixteen_of_lt_blen {s : State} {i : Nat} (h : i < s.blen.val) : i < 16 :=
  h.trans_le (Nat.le_of_lt_succ s.blen.isLt)

/-- Settles O11, by the one check of BS_BYTEAT. -/
theorem bsByteatGivesTheByteOrFaults : Obligations.BsByteatGivesTheByteOrFaults := by
  intro index s
  refine ⟨encodedAs_of_encode rfl (commandWord_eq_ofNat 0x09 index 0), fun h => ?_, execBsByteat_of_le s⟩
  have hcap := lt_sixteen_of_lt_blen h
  refine ⟨s.bbuf[index.toNat], Vector.getElem?_eq_getElem hcap, ?_⟩
  rw [BitVec.ofNat_toNat, ← getD_toList s.bbuf hcap]
  exact execBsByteat_of_lt s h

/-- Settles O13: BLEN is below 17. -/
theorem bsLengthGivesTheLength : Obligations.BsLengthGivesTheLength := by
  refine ⟨encodedAs_of_encode rfl rfl, fun s => ?_⟩
  have hlt := s.blen.isLt
  have hval : (BitVec.ofNat 64 s.blen.val).toNat = s.blen.val := by
    rw [BitVec.toNat_ofNat]
    omega
  exact ⟨_, rfl, hval, by omega⟩

theorem byteSlice_self (bs : List Byte) (i : Nat) : byteSlice bs i i = [] := by
  simp [byteSlice]

/-- A slice of one byte more ends in that byte. -/
theorem byteSlice_succ {bs : List Byte} {lo hi : Nat} (h : lo ≤ hi) (hlen : hi < bs.length) :
    byteSlice bs lo (hi + 1) = byteSlice bs lo hi ++ [bs.getD hi 0] := by
  have hdrop : hi - lo < (bs.drop lo).length := by
    rw [List.length_drop]
    omega
  unfold byteSlice
  rw [Nat.sub_add_comm h, List.take_succ_eq_append_getElem hdrop, List.getElem_drop, List.getD_eq_getElem _ _ hlen]
  simp only [Nat.add_sub_cancel' h]

/-- One more byte shifts the big-endian word left and comes in below. -/
theorem beWord_append (bs : List Byte) (b : Byte) : beWord (bs ++ [b]) = (beWord bs <<< 8) ||| b.setWidth 64 := by
  simp [beWord]

/-- A byte shifted in below is one more base-256 digit, modulo 2^64. -/
theorem toNat_shiftLeft_or_byte (v : DWord) (b : Byte) :
    ((v <<< 8) ||| b.setWidth 64).toNat = (v.toNat * 256 + b.toNat) % 2 ^ 64 := by
  have happend : (v <<< 8) ||| b.setWidth 64 = (v ++ b).setWidth 64 := by
    refine BitVec.eq_of_getLsbD_eq fun i hi => ?_
    rw [BitVec.getLsbD_or, BitVec.getLsbD_shiftLeft, BitVec.getLsbD_setWidth, BitVec.getLsbD_setWidth,
      BitVec.getLsbD_append]
    by_cases hlow : i < 8
    · simp [hlow, hi]
    · have hbyte : b.getLsbD i = false := BitVec.getLsbD_of_ge b i (by omega)
      simp [hlow, hi, hbyte]
  rw [happend, BitVec.toNat_setWidth, toNat_append_byte]

/-- The big-endian word of a slice is the slice's big-endian number, modulo 2^64. -/
theorem beWord_byteSlice (bs : List Byte) {lo hi : Nat} (h : lo ≤ hi) (hlen : hi ≤ bs.length) :
    (beWord (byteSlice bs lo hi)).toNat = beNat bs lo hi % 2 ^ 64 := by
  induction hi, h using Nat.le_induction with
  | base => rw [byteSlice_self, beNat_self]; rfl
  | succ hi hle ih =>
    rw [byteSlice_succ hle hlen, beWord_append, toNat_shiftLeft_or_byte, ih (by omega), beNat_succ _ hle]
    omega

/-- A big-endian number of n bytes is below 256^n. -/
theorem beNat_lt (bs : List Byte) {lo hi : Nat} (h : lo ≤ hi) : beNat bs lo hi < 256 ^ (hi - lo) := by
  induction hi, h using Nat.le_induction with
  | base => simp [beNat_self]
  | succ hi hle ih =>
    have hb := (bs.getD hi 0).isLt
    rw [beNat_succ _ hle, Nat.sub_add_comm hle, pow_succ]
    omega

/-- A slice of at most 8 bytes fits a word. -/
theorem beNat_lt_two_pow_64 (bs : List Byte) {lo hi : Nat} (h : lo ≤ hi) (hspan : hi - lo ≤ 8) :
    beNat bs lo hi < 2 ^ 64 :=
  (beNat_lt bs h).trans_le (Nat.pow_le_pow_right (n := 256) (by decide) hspan)

theorem execBsRange_of_legal {lo hi : Byte} (s : State) (hle : lo.toNat ≤ hi.toNat) (hlen : hi.toNat ≤ s.blen.val)
    (hspan : hi.toNat - lo.toNat ≤ 8) : execBsRange lo hi s =
      .next (presented (beWord (byteSlice s.bbuf.toList lo.toNat hi.toNat)) s) := by
  rw [execBsRange, if_neg (by omega), if_neg (by omega)]
  rfl

theorem execBsRange_of_bad_bounds {lo hi : Byte} (s : State) (h : hi.toNat < lo.toNat ∨ s.blen.val < hi.toNat) :
    execBsRange lo hi s = .next (raised .byteIndex s.cmd s) :=
  if_pos h

theorem execBsRange_of_long_span {lo hi : Byte} (s : State) (hle : lo.toNat ≤ hi.toNat)
    (hlen : hi.toNat ≤ s.blen.val) (hspan : 8 < hi.toNat - lo.toNat) :
    execBsRange lo hi s = .next (raised .byteSpan s.cmd s) := by
  rw [execBsRange, if_neg (by omega), if_pos hspan]
  rfl

/-- Settles O12, by the two checks of BS_RANGE: eight bytes are within 2^64. -/
theorem bsRangeGivesTheBigEndianWordOrFaults : Obligations.BsRangeGivesTheBigEndianWordOrFaults := by
  intro lo hi s
  refine ⟨encodedAs_of_encode rfl (commandWord_eq_ofNat 0x0A lo hi), fun hle hlen hspan => ?_,
    execBsRange_of_bad_bounds s, execBsRange_of_long_span s⟩
  refine ⟨_, execBsRange_of_legal s hle hlen hspan, ?_⟩
  have hcap : hi.toNat ≤ s.bbuf.toList.length := by
    rw [Vector.length_toList]
    omega
  rw [beWord_byteSlice _ hle hcap, Nat.mod_eq_of_lt (beNat_lt_two_pow_64 _ hle hspan)]

/-! The laws of 40_bitview.md R117 -/

/-- The big-endian word of a slice of one byte is that byte. -/
theorem beWord_byteSlice_one {bs : List Byte} {i : Nat} (h : i < bs.length) :
    beWord (byteSlice bs i (i + 1)) = (bs.getD i 0).setWidth 64 := by
  rw [byteSlice_succ le_rfl h, byteSlice_self]
  exact BitVec.zero_or

/-- Settles O14: a field of size 1 is masked by 1, and a range of one byte is that byte. -/
theorem bitViewCommandsAgreeWithEachOther : Obligations.BitViewCommandsAgreeWithEachOther := by
  constructor
  · intro index s h
    exact (execBvTestbit_of_lt s h).trans (execBvExtract_of_legal s (size := 1) (by decide) (by decide) h).symm
  · intro j s h
    have hcap := lt_sixteen_of_lt_blen h
    have hsucc : (j + 1).toNat = j.toNat + 1 := by
      rw [BitVec.toNat_add]
      exact Nat.mod_eq_of_lt (Nat.lt_of_le_of_lt hcap (by decide))
    have hlegal := execBsRange_of_legal (lo := j) (hi := j + 1) s (by omega) (by omega) (by omega)
    rw [hsucc, beWord_byteSlice_one (by simpa using hcap)] at hlegal
    exact hlegal.trans (execBsByteat_of_lt s h).symm

/-! The frame of every command -/

/-- Only FIFO_POP touches the FIFO. -/
theorem Effect.fifo_eq {i : Instr} {s t : State} (h : Effect s i t) (hi : i ≠ .fifoPop) : t.fifo = s.fifo := by
  cases h with
  | framePopped => exact absurd rfl hi
  | _ => rfl

/-- Only FIFO_POP and RF_OF touch the frame register. -/
theorem Effect.fr_eq {i : Instr} {s t : State} (h : Effect s i t) (hpop : i ≠ .fifoPop) (hof : i ≠ .rfOf) :
    t.fr = s.fr ∧ t.frValid = s.frValid := by
  cases h with
  | framePopped => exact absurd rfl hpop
  | frameDropped | frameBuilt => exact absurd rfl hof
  | _ => exact ⟨rfl, rfl⟩

/-- Only RF_CPRLOAD touches the CPR operands. -/
theorem Effect.cpr_eq {i : Instr} {s t : State} (h : Effect s i t) (hi : i ≠ .rfCprload) :
    t.cprX0 = s.cprX0 ∧ t.cprY0 = s.cprY0 ∧ t.cprX1 = s.cprX1 ∧ t.cprY1 = s.cprY1 := by
  cases h with
  | cprEven | cprOdd => exact absurd rfl hi
  | _ => exact ⟨rfl, rfl, rfl, rfl⟩

/-- Settles O23, by the effect of the command. -/
theorem commandsLeaveEverythingElseUnchanged : Obligations.CommandsLeaveEverythingElseUnchanged := by
  intro i s t h
  have he := exec_effect h
  refine ⟨?_, he.fifo_eq, he.fr_eq, he.cpr_eq⟩
  cases he <;> rfl

end Sys2Proof.Machine
end

section
/-!
PROOFS. The CRC24 function, its table and the CRC24 commands (O15, O16, O52, O53, O54, O55).

The CRC is linear over GF(2) and goes byte by byte, so the table need only agree with the bitwise reference on the one
byte that falls out of the register; and no step loses anything, so different registers stay different.
-/

namespace Sys2Proof.Machine

open Sys2Proof.Claims

/-! One bit through the register of the bitwise reference -/

/-- The register shifts the bit in below and subtracts the generator when a bit fell out (41_crc24.md R130). -/
theorem crcBit_eq (r : Crc) (b : Bool) :
    crcBit r b = r.shiftConcat b ^^^ if r.getLsbD 23 then Config.crcGen else 0 := by
  have hshift : (r <<< 1) ||| (BitVec.ofBool b).setWidth 24 = r.shiftConcat b := by
    refine BitVec.eq_of_getLsbD_eq fun i hi => ?_
    cases i <;> simp [hi]
  rw [crcBit, hshift]
  split <;> simp

theorem shiftConcat_xor {w : Nat} (r q : BitVec w) (a b : Bool) :
    (r ^^^ q).shiftConcat (a ^^ b) = r.shiftConcat a ^^^ q.shiftConcat b := by
  refine BitVec.eq_of_getLsbD_eq fun i hi => ?_
  cases i <;> simp [hi]

/-- One bit through the register is linear over GF(2). -/
theorem crcBit_xor (r q : Crc) (a b : Bool) : crcBit (r ^^^ q) (a ^^ b) = crcBit r a ^^^ crcBit q b := by
  have hgen : ∀ t u : Bool, (if t ^^ u then Config.crcGen else 0) =
      (if t then Config.crcGen else 0) ^^^ if u then Config.crcGen else 0 := by decide
  rw [crcBit_eq, crcBit_eq, crcBit_eq, shiftConcat_xor, BitVec.getLsbD_xor, hgen]
  ac_rfl

/-- A value shorter than the register takes the bit in below, and nothing falls out. -/
theorem crcBit_setWidth {w : Nat} (u : BitVec w) (b : Bool) (hw : w < 24) :
    crcBit (u.setWidth 24) b = (u.concat b).setWidth 24 := by
  have htop : (u.setWidth 24).getLsbD 23 = false := by
    simp [BitVec.getLsbD_of_ge u 23 (by omega)]
  rw [crcBit_eq, htop]
  refine BitVec.eq_of_getLsbD_eq fun i hi => ?_
  cases i <;> simp [hi]

/-- A zero bit takes no other register than 0 to 0: the generator is odd, and a shift drops a bit that is set only when
it subtracts the generator. -/
theorem crcBit_false_eq_zero {r : Crc} (h : crcBit r false = 0#24) : r = 0#24 := by
  have hbit : ∀ i, (crcBit r false).getLsbD i = false := fun i => by rw [h, BitVec.getLsbD_zero]
  rw [crcBit_eq] at hbit
  cases htop : r.getLsbD 23 with
  | true =>
    have hodd := hbit 0
    rw [htop] at hodd
    simp [Config.crcGen] at hodd
  | false =>
    refine BitVec.eq_of_getLsbD_eq fun i hi => ?_
    by_cases hi23 : i = 23
    · rw [hi23, htop]
      rfl
    · have hnext := hbit (i + 1)
      rw [htop] at hnext
      simpa [hi, BitVec.getLsbD_shiftConcat, show i + 1 < 24 by omega] using hnext

/-! One byte through the register -/

/-- One byte through the register of the bitwise reference, most significant bit first. -/
def crcByte (r : Crc) (m : Byte) : Crc :=
  (byteBits m).foldl crcBit r

/-- One byte through the register is linear over GF(2). -/
theorem crcByte_xor (r q : Crc) (m n : Byte) : crcByte (r ^^^ q) (m ^^^ n) = crcByte r m ^^^ crcByte q n := by
  simp only [crcByte, byteBits, BitVec.getLsbD_xor, List.foldl_cons, List.foldl_nil, crcBit_xor]

/-- A byte appended is its bits, most significant first, taken in below. -/
theorem append_byte_eq_concat {w : Nat} (u : BitVec w) (m : Byte) : u ++ m =
    (((((((u.concat (m.getLsbD 7)).concat (m.getLsbD 6)).concat (m.getLsbD 5)).concat (m.getLsbD 4)).concat
      (m.getLsbD 3)).concat (m.getLsbD 2)).concat (m.getLsbD 1)).concat (m.getLsbD 0) := by
  refine BitVec.eq_of_getLsbD_eq fun i hi => ?_
  rcases i with _ | _ | _ | _ | _ | _ | _ | _ | i <;>
    simp [BitVec.getLsbD_append, BitVec.getLsbD_concat, -BitVec.getLsbD_eq_getElem]

/-- A value at least a byte shorter than the register takes the byte in below, and nothing falls out. -/
theorem crcByte_setWidth {w : Nat} (u : BitVec w) (m : Byte) (hw : w ≤ 16) :
    crcByte (u.setWidth 24) m = (u ++ m).setWidth 24 := by
  rw [append_byte_eq_concat]
  simp only [crcByte, byteBits, List.foldl_cons, List.foldl_nil]
  repeat rw [crcBit_setWidth _ _ (by omega)]

theorem crcByte_zero_left (m : Byte) : crcByte 0#24 m = m.setWidth 24 := by
  refine (crcByte_setWidth 0#0 m (by decide)).trans ?_
  rw [BitVec.zero_width_append]
  exact BitVec.setWidth_cast

theorem crcByte_zero_eq_zero {r : Crc} (h : crcByte r 0#8 = 0#24) : r = 0#24 := by
  simp only [crcByte, byteBits, List.foldl_cons, List.foldl_nil] at h
  iterate 8 apply crcBit_false_eq_zero at h
  exact h

theorem crcByte_xor_eq_zero {r q : Crc} {m n : Byte} (h : crcByte r m = crcByte q n) :
    crcByte (r ^^^ q) (m ^^^ n) = 0#24 := by
  rw [crcByte_xor, h, BitVec.xor_self]

/-- The same byte keeps different registers different. -/
theorem crcByte_left_injective (m : Byte) : Function.Injective (crcByte · m) := by
  intro r q h
  have hdiff := crcByte_xor_eq_zero h
  rw [BitVec.xor_self] at hdiff
  exact BitVec.xor_eq_zero_iff.mp (crcByte_zero_eq_zero hdiff)

/-- Different bytes take the same register to different ones. -/
theorem crcByte_right_injective (r : Crc) : Function.Injective (crcByte r) := by
  intro m n h
  have hdiff := crcByte_xor_eq_zero h
  rw [BitVec.xor_self, crcByte_zero_left] at hdiff
  have hbyte := congrArg (BitVec.setWidth 8) hdiff
  rw [BitVec.setWidth_setWidth_of_le _ (by decide), BitVec.setWidth_eq] at hbyte
  exact BitVec.xor_eq_zero_iff.mp hbyte

/-! Three bytes fill the register, and three zero bytes flush it -/

/-- The three flush rounds (41_crc24.md R133), the 24 zero bits of the reference (R130). -/
def crcFlush (r : Crc) : Crc :=
  crcByte (crcByte (crcByte r 0#8) 0#8) 0#8

/-- Three bytes fill an empty register. -/
theorem crcByte_three_zero (a b c : Byte) : crcByte (crcByte (crcByte 0#24 a) b) c = a ++ b ++ c := by
  rw [crcByte_zero_left, crcByte_setWidth a b (by decide), crcByte_setWidth (a ++ b) c (by decide), BitVec.setWidth_eq]

/-- Three bytes flush the register and are added to it. -/
theorem crcByte_three (r : Crc) (a b c : Byte) :
    crcByte (crcByte (crcByte r a) b) c = crcFlush r ^^^ (a ++ b ++ c) := by
  rw [crcFlush, ← crcByte_three_zero, ← crcByte_xor, ← crcByte_xor, ← crcByte_xor]
  simp

theorem crcFlush_xor (r q : Crc) : crcFlush (r ^^^ q) = crcFlush r ^^^ crcFlush q := by
  simp only [crcFlush, ← crcByte_xor, BitVec.xor_self]

theorem crcFlush_injective : Function.Injective crcFlush :=
  fun _ _ h => crcByte_left_injective _ (crcByte_left_injective _ (crcByte_left_injective _ h))

theorem crcFlush_eq_zero {r : Crc} : crcFlush r = 0#24 ↔ r = 0#24 :=
  crcFlush_injective.eq_iff' (crcByte_three_zero 0#8 0#8 0#8)

/-- The bitwise reference goes byte by byte and then flushes the register. -/
theorem crcBitwise_eq_crcFlush (ms : List Byte) : crcBitwise ms = crcFlush (ms.foldl crcByte 0#24) := by
  rw [crcBitwise, List.foldl_flatMap, List.foldl_append]
  rfl

/-! The table -/

/-- The table holds what a byte at the top of the register leaves when it falls out. -/
theorem crcTable_eq_crcByte : ∀ v : Byte, crcTable v = crcByte (v ++ 0#8 ++ 0#8) 0#8 := by
  decide +kernel

/-- Settles O52: the first two flush rounds bring the byte to the top of the register. -/
theorem crcTableIsTheBitwiseRemainder : Obligations.CrcTableIsTheBitwiseRemainder := by
  intro v
  rw [crcTable_eq_crcByte, ← crcByte_three_zero, crcBitwise_eq_crcFlush]
  rfl

/-- A register is the sum of its low two bytes and its top byte. -/
theorem append_eq_setWidth_xor (t : Byte) (l : BitVec 16) :
    t ++ l = l.setWidth 24 ^^^ (t ++ 0#8 ++ 0#8) := by
  have hl : l.setWidth 24 = 0#8 ++ l := BitVec.setWidth_eq_append (by decide)
  have ht : t ++ 0#8 ++ 0#8 = t ++ 0#16 := BitVec.append_assoc
  rw [hl, ht]
  refine .trans ?_ BitVec.xor_append.symm
  rw [BitVec.zero_xor, BitVec.xor_zero]

/-- One byte through the table-driven accumulator is one byte through the register of the reference: the low two bytes
move up, and the top byte leaves what the table holds. -/
theorem crcStep_eq_crcByte (r : Crc) (m : Byte) : crcStep r m = crcByte r m := by
  have hsum : r = (r.extractLsb' 0 16).setWidth 24 ^^^ (r.extractLsb' 16 8 ++ 0#8 ++ 0#8) := by
    rw [← append_eq_setWidth_xor]
    exact (BitVec.extractLsb'_append_extractLsb' (w := 8) (len := 16) (x := r)).symm
  have hlow : (r <<< 8) ||| m.setWidth 24 = crcByte ((r.extractLsb' 0 16).setWidth 24) m := by
    have hup : (r.extractLsb' 0 16).setWidth 24 <<< 8 = r <<< 8 := by
      refine BitVec.eq_of_getLsbD_eq fun i hi => ?_
      simp [hi, show i - 8 < 16 by omega, show i - 8 < 24 by omega, -BitVec.getLsbD_eq_getElem]
    rw [crcByte_setWidth _ _ le_rfl, BitVec.setWidth_append_eq_shiftLeft_setWidth_or, hup]
  calc crcStep r m
      = crcByte ((r.extractLsb' 0 16).setWidth 24) m
          ^^^ crcByte (r.extractLsb' 16 8 ++ 0#8 ++ 0#8) 0#8 := by
        rw [crcStep, hlow, crcTable_eq_crcByte]
    _ = crcByte r (m ^^^ 0#8) := by
        rw [← crcByte_xor, ← hsum]
    _ = crcByte r m := congrArg _ BitVec.xor_zero

/-- The CRC by the bytes through the register of the reference. -/
theorem crc_eq_crcFlush (ms : List Byte) : crc ms = crcFlush (ms.foldl crcByte 0#24) := by
  have hstep : crcStep = crcByte := funext₂ crcStep_eq_crcByte
  rw [crc, hstep]
  rfl

/-- Settles O53: both go byte by byte through the same register. -/
theorem tableDrivenCrcEqualsTheBitwiseReference : Obligations.TableDrivenCrcEqualsTheBitwiseReference := by
  intro ms
  rw [crc_eq_crcFlush, crcBitwise_eq_crcFlush]

/-! Linearity -/

theorem foldl_crcByte_xorBytes {ms ns : List Byte} (h : ms.length = ns.length) (r q : Crc) :
    (xorBytes ms ns).foldl crcByte (r ^^^ q) = ms.foldl crcByte r ^^^ ns.foldl crcByte q := by
  induction ms generalizing ns r q with
  | nil =>
    cases ns with
    | nil => rfl
    | cons => cases h
  | cons m ms ih =>
    cases ns with
    | nil => cases h
    | cons n ns =>
      simp only [xorBytes, List.zipWith_cons_cons, List.foldl_cons, crcByte_xor]
      exact ih (Nat.succ.inj h) _ _

/-- Settles O54, by induction on the two sequences. -/
theorem crcIsLinear : Obligations.CrcIsLinear := by
  intro ms ns h
  rw [crc_eq_crcFlush, crc_eq_crcFlush, crc_eq_crcFlush, ← crcFlush_xor, ← foldl_crcByte_xorBytes h,
    BitVec.xor_self]

/-! Accepted frames -/

/-- A frame is its first eleven bytes and its last three. -/
theorem toList_eq_take_eleven_append (F : Vector Byte 14) :
    F.toList = F.toList.take 11 ++ [F[11], F[12], F[13]] := by
  have hlast : F.toList.drop 11 = [F[11], F[12], F[13]] := by
    simp [List.drop_eq_getElem_cons]
  rw [← hlast, List.take_append_drop]

/-- The CRC of a sequence that ends in three bytes is 0 exactly when they are the CRC of the rest. -/
theorem crc_append_three_eq_zero {ms : List Byte} {a b c : Byte} :
    crc (ms ++ [a, b, c]) = 0#24 ↔ a ++ b ++ c = crc ms := by
  have hsum : (ms ++ [a, b, c]).foldl crcByte 0#24 = crc ms ^^^ (a ++ b ++ c) := by
    rw [List.foldl_append, crc_eq_crcFlush, ← crcByte_three]
    rfl
  rw [crc_eq_crcFlush, hsum, crcFlush_eq_zero]
  exact BitVec.xor_eq_zero_iff.trans eq_comm

/-- A fold whose every step keeps different values different keeps them different. -/
theorem foldl_left_injective {α β : Type} {f : α → β → α} (hf : ∀ b, Function.Injective (f · b))
    (l : List β) : Function.Injective (l.foldl f ·) := by
  induction l with
  | nil => exact Function.injective_id
  | cons b l ih => exact ih.comp (hf b)

/-- The CRC tells two sequences apart that differ in just one byte. -/
theorem crc_set_injective {ms : List Byte} {k : Nat} (hk : k < ms.length) :
    Function.Injective fun b => crc (ms.set k b) := by
  intro a b h
  simp only [crc_eq_crcFlush, List.set_eq_take_append_cons_drop, if_pos hk, List.foldl_append, List.foldl_cons] at h
  exact crcByte_right_injective _ (foldl_left_injective crcByte_left_injective _ (crcFlush_injective h))

theorem one_shiftLeft_ne_zero (j : Fin 8) : 1#8 <<< j.val ≠ 0 := by
  decide +revert

/-- Settles O55: three bytes are added to the register, and a byte with a bit flipped is another byte. -/
theorem acceptedFramesCarryTheirCrcAndDetectBitErrors :
    Obligations.AcceptedFramesCarryTheirCrcAndDetectBitErrors := by
  constructor
  · intro F
    have hcrc := crc_append_three_eq_zero (ms := F.toList.take 11) (a := F[11]) (b := F[12]) (c := F[13])
    rwa [← toList_eq_take_eleven_append] at hcrc
  · intro F k j hF hflip
    have hk : k.val < F.toList.length := F.length_toList.symm ▸ k.isLt
    have hsame : F.toList.set k.val (F[k.val]'k.isLt) = F.toList := by
      rw [← Vector.toList_set k.isLt, Vector.set_getElem_self]
    rw [Vector.toList_set, ← hF] at hflip
    have hbyte := crc_set_injective hk (hflip.trans (congrArg crc hsame.symm))
    exact one_shiftLeft_ne_zero j (by simpa using hbyte)

/-! The commands -/

theorem exec_crcTable (entry : Byte) (s : State) :
    exec (.crcTable entry) s = .next (presented ((crcTable entry).setWidth 64) s) := rfl

theorem exec_crcCompute (s : State) :
    exec .crcCompute s = .next (presented ((crc (s.bbuf.toList.take s.blen.val)).setWidth 64) s) := rfl

/-- Settles O15, by the table's entry. -/
theorem crcTableGivesTheRemainderOfTheByte : Obligations.CrcTableGivesTheRemainderOfTheByte := by
  refine ⟨fun entry => encodedAs_of_encode rfl (commandWord_eq_ofNat 0x10 entry 0), fun entry s =>
    ⟨_, exec_crcTable entry s, ?_⟩⟩
  rw [BitVec.toNat_setWidth_of_le (by decide), crcTableIsTheBitwiseRemainder]
  exact ⟨rfl, BitVec.isLt _⟩

/-- Settles O16, by the equality of the two CRCs. -/
theorem crcComputeGivesTheCrcOfTheSequence : Obligations.CrcComputeGivesTheCrcOfTheSequence := by
  refine ⟨encodedAs_of_encode rfl rfl, fun s => ⟨_, exec_crcCompute s, ?_, fun h => ?_⟩⟩
  · rw [BitVec.toNat_setWidth_of_le (by decide), tableDrivenCrcEqualsTheBitwiseReference]
  · rw [h, List.take_zero]
    decide

end Sys2Proof.Machine
end

section
/-!
PROOFS. The sample decoder and the power FIR on a whole stream (O40, and the closed form for O41 and O60): what the
bytes taken so far leave in the assembler, in the FIR and in the power stream, as functions of these bytes.
-/

namespace Sys2Proof.Machine

open Sys2Proof.Claims

/-! One byte -/

/-- The sample of a byte pair, by the values of the two bytes (42_demod.md R150). -/
theorem sampleOf_eq (lo hi : Byte) : sampleOf lo hi = (lo.toNat : Int) + 256 * hi.toNat - 2048 := by
  simp only [sampleOf, Config.sampleBias, toNat_append_byte]
  omega

/-- The power of a history as an integer: the clamp of `firPower` never acts (42_demod.md R152). -/
theorem firPower_eq (h : Vector Int 8) : (firPower h : Int) = firP1 h ^ 2 + firP2 h ^ 2 := by
  rw [firPower, ← sq, ← sq]
  exact Int.toNat_of_nonneg (by positivity)

theorem sourceByte_of_no_lowByte {s : State} (b : Byte) (hl : s.lowByte = none) :
    sourceByte b s = { s with lowByte := some b } := by
  simp only [sourceByte, hl]

theorem sourceByte_of_no_half {s : State} {lo : Byte} (b : Byte) (hl : s.lowByte = some lo) (hh : s.half = none) :
    sourceByte b s = { s with lowByte := none, nSamples := s.nSamples + 1, half := some (sampleOf lo b) } := by
  simp only [sourceByte, hl, firSample, hh]

theorem sourceByte_of_half {s : State} {lo : Byte} {h : Int} (b : Byte) (hl : s.lowByte = some lo)
    (hh : s.half = some h) : sourceByte b s = { s with
      lowByte := none
      nSamples := s.nSamples + 1
      half := none
      hist := shiftHist s.hist h (sampleOf lo b)
      power := s.power ++ [firPower (shiftHist s.hist h (sampleOf lo b))] } := by
  simp only [sourceByte, hl, firSample, hh]

/-- Settles O40, by the byte and the sample that wait. -/
theorem deliveredBytesFormSamplesAndPowers : Obligations.DeliveredBytesFormSamplesAndPowers := by
  intro b s
  refine ⟨sourceByte_of_no_lowByte b, fun lo hl hh => ?_, fun lo h hl hh =>
    ⟨firPower (shiftHist s.hist h (sampleOf lo b)), ?_, ?_⟩⟩
  · rw [sourceByte_of_no_half b hl hh, sampleOf_eq]
  · rw [sourceByte_of_half b hl hh, shiftHist, sampleOf_eq]
  · rw [firPower_eq, ← sampleOf_eq]
    rfl

/-! A stream that goes on by one byte -/

/-- A sample whose two bytes have come stays as it is. -/
theorem sampleAt_append {bs : List Byte} {j : Int} (b : Byte) (hj : 2 * j + 2 ≤ bs.length) :
    sampleAt (bs ++ [b]) j = sampleAt bs j := by
  unfold sampleAt
  split
  · rfl
  · rw [List.getD_append _ _ _ _ (by omega), List.getD_append _ _ _ _ (by omega)]

/-- The sample a byte completes: the byte before it and the byte itself. -/
theorem sampleAt_completed {bs : List Byte} {j : Nat} (b : Byte) (hj : bs.length = 2 * j + 1) :
    sampleAt (bs ++ [b]) j = sampleOf (bs.getD (bs.length - 1) 0) b := by
  have hlo : (bs ++ [b]).getD (2 * j) 0 = bs.getD (bs.length - 1) 0 := by
    rw [List.getD_append _ _ _ _ (by omega), hj, Nat.add_sub_cancel]
  have hhi : (bs ++ [b]).getD (2 * j + 1) 0 = b := by
    rw [← hj, List.getD_append_right _ _ _ _ le_rfl, Nat.sub_self]
    rfl
  rw [sampleOf_eq, sampleAt, if_neg (by omega), Int.toNat_natCast, hlo, hhi]

/-- A power sample whose bytes have come stays as it is. -/
theorem powerOf_append {bs : List Byte} {n : Nat} (b : Byte) (hn : n < bs.length / 4) :
    powerOf (bs ++ [b]) n = powerOf bs n := by
  have h : ∀ j : Int, j ≤ 2 * n + 1 → sampleAt (bs ++ [b]) j = sampleAt bs j := fun j hj =>
    sampleAt_append b (by omega)
  simp only [powerOf, h _ (show (2 * n : Int) - 6 ≤ _ by omega), h _ (show (2 * n : Int) - 4 ≤ _ by omega),
    h _ (show (2 * n : Int) - 2 ≤ _ by omega), h _ (show (2 * n : Int) ≤ _ by omega),
    h _ (show (2 * n : Int) - 5 ≤ _ by omega), h _ (show (2 * n : Int) - 3 ≤ _ by omega),
    h _ (show (2 * n : Int) - 1 ≤ _ by omega), h _ le_rfl]

/-- A byte that completes no pair of samples leaves their number. -/
theorem pairs_append_of_incomplete {bs : List Byte} (b : Byte) (h : bs.length % 4 ≠ 3) :
    (bs ++ [b]).length / 4 = bs.length / 4 := by
  rw [List.length_append, List.length_singleton]
  omega

/-- A byte that completes a pair of samples adds it to their number. -/
theorem pairs_append_of_complete {bs : List Byte} (b : Byte) (h : bs.length % 4 = 3) :
    (bs ++ [b]).length / 4 = bs.length / 4 + 1 := by
  rw [List.length_append, List.length_singleton]
  omega

theorem length_powers (bs : List Byte) : (powers bs).length = bs.length / 4 := by
  simp [powers]

/-- A byte that completes no pair of samples adds no power sample. -/
theorem powers_append_of_incomplete {bs : List Byte} (b : Byte) (h : bs.length % 4 ≠ 3) :
    powers (bs ++ [b]) = powers bs := by
  rw [powers, pairs_append_of_incomplete b h]
  exact List.map_congr_left fun n hn => powerOf_append b (List.mem_range.mp hn)

/-- A byte that completes a pair of samples adds the power sample of the next number. -/
theorem powers_append_of_complete {bs : List Byte} (b : Byte) (h : bs.length % 4 = 3) :
    powers (bs ++ [b]) = powers bs ++ [powerOf (bs ++ [b]) (bs.length / 4)] := by
  rw [powers, pairs_append_of_complete b h, List.range_succ, List.map_append]
  exact congrArg (· ++ _) (List.map_congr_left fun n hn => powerOf_append b (List.mem_range.mp hn))

/-- The power stream only grows. -/
theorem exists_powers_append (bs : List Byte) (b : Byte) : ∃ Q, powers (bs ++ [b]) = powers bs ++ Q := by
  by_cases h : bs.length % 4 = 3
  · exact ⟨_, powers_append_of_complete b h⟩
  · exact ⟨[], by rw [powers_append_of_incomplete b h, List.append_nil]⟩

/-! What the bytes leave behind -/

/-- The byte that waits for its partner after a byte stream (42_demod.md R150). -/
def waitingByte (bs : List Byte) : Option Byte :=
  if bs.length % 2 = 1 then some (bs.getD (bs.length - 1) 0) else none

/-- The sample that waits for its partner after a byte stream (42_demod.md R152). -/
def waitingSample (bs : List Byte) : Option Int :=
  if bs.length / 2 % 2 = 1 then some (sampleAt bs (bs.length / 2 - 1 : Nat)) else none

/-- The FIR history after a byte stream: the last eight samples of the complete pairs (42_demod.md R152). -/
def historyOf (bs : List Byte) : Vector Int 8 :=
  Vector.ofFn fun i => sampleAt bs (2 * (bs.length / 4 : Nat) - 8 + i.val)

/-- The state holds what a byte stream leaves in the assembler and in the FIR, the end of the stream apart. -/
structure Assembled (bs : List Byte) (s : State) : Prop where
  lowByte : s.lowByte = waitingByte bs
  nSamples : s.nSamples = bs.length / 2
  hist : s.hist = historyOf bs
  half : s.half = waitingSample bs
  power : s.power = powers bs

theorem historyOf_nil : historyOf [] = Vector.replicate 8 0 := by
  decide

theorem assembled_nil {s : State} (h : s.fresh) : Assembled [] s := by
  rw [h]
  exact ⟨rfl, rfl, historyOf_nil.symm, rfl, rfl⟩

theorem waitingByte_of_even {bs : List Byte} (h : bs.length % 2 = 0) : waitingByte bs = none :=
  if_neg (by omega)

theorem waitingByte_of_odd {bs : List Byte} (h : bs.length % 2 = 1) :
    waitingByte bs = some (bs.getD (bs.length - 1) 0) :=
  if_pos h

theorem waitingSample_of_even {bs : List Byte} (h : bs.length / 2 % 2 = 0) : waitingSample bs = none :=
  if_neg (by omega)

theorem waitingSample_of_odd {bs : List Byte} (h : bs.length / 2 % 2 = 1) :
    waitingSample bs = some (sampleAt bs (bs.length / 2 - 1 : Nat)) :=
  if_pos h

/-- A byte that completes no sample leaves the one that waits. -/
theorem waitingSample_append_of_even {bs : List Byte} (b : Byte) (h : bs.length % 2 = 0) :
    waitingSample (bs ++ [b]) = waitingSample bs := by
  have hlen : (bs ++ [b]).length / 2 = bs.length / 2 := by
    rw [List.length_append, List.length_singleton]
    omega
  rw [waitingSample, hlen]
  refine ite_congr rfl (fun hpair => ?_) fun _ => rfl
  rw [sampleAt_append b (by omega)]

/-- A byte that completes no pair of samples leaves the history. -/
theorem historyOf_append_of_incomplete {bs : List Byte} (b : Byte) (h : bs.length % 4 ≠ 3) :
    historyOf (bs ++ [b]) = historyOf bs := by
  rw [historyOf, pairs_append_of_incomplete b h]
  exact congrArg Vector.ofFn (funext fun i => sampleAt_append b (by omega))

/-- A byte that completes a pair of samples shifts the pair into the history. -/
theorem historyOf_append_of_complete {bs : List Byte} (b : Byte) (h : bs.length % 4 = 3) :
    historyOf (bs ++ [b]) = shiftHist (historyOf bs) (sampleAt bs (bs.length / 2 - 1 : Nat))
      (sampleOf (bs.getD (bs.length - 1) 0) b) := by
  have hpairs := pairs_append_of_complete b h
  have hfirst : sampleAt (bs ++ [b]) (bs.length / 2 - 1 : Nat) = sampleAt bs (bs.length / 2 - 1 : Nat) :=
    sampleAt_append b (by omega)
  rw [← hfirst, ← sampleAt_completed (j := bs.length / 2) b (by omega)]
  have hkept : ∀ k : Nat, k < 6 → sampleAt (bs ++ [b]) (2 * (bs.length / 4 + 1 : Nat) - 8 + k) =
      sampleAt bs (2 * (bs.length / 4 : Nat) - 8 + (k + 2 : Nat)) := fun k hk => by
    rw [sampleAt_append b (by omega)]
    congr 1
    omega
  ext i hi
  interval_cases i
  all_goals
    simp only [historyOf, hpairs, shiftHist, Vector.getElem_ofFn, Vector.getElem_mk, List.getElem_toArray,
      List.getElem_cons_zero, List.getElem_cons_succ]
  · exact hkept 0 (by decide)
  · exact hkept 1 (by decide)
  · exact hkept 2 (by decide)
  · exact hkept 3 (by decide)
  · exact hkept 4 (by decide)
  · exact hkept 5 (by decide)
  · exact congrArg _ (by omega)
  · exact congrArg _ (by omega)

/-- The power of the history is the newest power sample of the closed form (42_demod.md R153). -/
theorem firPower_historyOf {bs : List Byte} {n : Nat} (h : bs.length / 4 = n + 1) :
    firPower (historyOf bs) = powerOf bs n := by
  have hx : ∀ (i : Nat) (hi : i < 8) (j : Int), j = 2 * n - 6 + i → (historyOf bs)[i] = sampleAt bs j := by
    intro i hi j hj
    simp only [historyOf, Vector.getElem_ofFn, h]
    congr 1
    omega
  rw [firPower, ← sq, ← sq, firP1, firP2, hx 0 _ (2 * n - 6) (by omega), hx 2 _ (2 * n - 4) (by omega),
    hx 4 _ (2 * n - 2) (by omega), hx 6 _ (2 * n) (by omega), hx 1 _ (2 * n - 5) (by omega),
    hx 3 _ (2 * n - 3) (by omega), hx 5 _ (2 * n - 1) (by omega), hx 7 _ (2 * n + 1) (by omega)]
  rfl

/-- A delivered byte, in each of its three cases by the length of the stream so far. -/
theorem Assembled.append_byte {bs : List Byte} {s : State} (h : Assembled bs s) (b : Byte) :
    Assembled (bs ++ [b]) (sourceByte b s) := by
  have hlen : (bs ++ [b]).length = bs.length + 1 := List.length_append
  have hlow := h.lowByte
  have hhalf := h.half
  have hn := h.nSamples
  rcases Nat.mod_two_eq_zero_or_one bs.length with hodd | hodd
  · rw [waitingByte_of_even hodd] at hlow
    rw [sourceByte_of_no_lowByte b hlow]
    exact {
      lowByte := by rw [waitingByte_of_odd (by omega)]; simp
      nSamples := by simp only [hlen]; omega
      hist := by rw [historyOf_append_of_incomplete b (by omega)]; exact h.hist
      half := by rw [waitingSample_append_of_even b hodd]; exact h.half
      power := by rw [powers_append_of_incomplete b (by omega)]; exact h.power }
  · rw [waitingByte_of_odd hodd] at hlow
    rcases Nat.mod_two_eq_zero_or_one (bs.length / 2) with hpair | hpair
    · rw [waitingSample_of_even hpair] at hhalf
      rw [sourceByte_of_no_half b hlow hhalf]
      exact {
        lowByte := by rw [waitingByte_of_even (by omega)]
        nSamples := by simp only [hlen]; omega
        hist := by rw [historyOf_append_of_incomplete b (by omega)]; exact h.hist
        half := by
          have hidx : (bs ++ [b]).length / 2 - 1 = bs.length / 2 := by omega
          rw [waitingSample_of_odd (by omega), hidx, sampleAt_completed b (by omega)]
        power := by rw [powers_append_of_incomplete b (by omega)]; exact h.power }
    · rw [waitingSample_of_odd hpair] at hhalf
      rw [sourceByte_of_half b hlow hhalf, h.hist, ← historyOf_append_of_complete b (by omega),
        firPower_historyOf (n := bs.length / 4) (by omega), h.power, ← powers_append_of_complete b (by omega)]
      exact {
        lowByte := by rw [waitingByte_of_even (by omega)]
        nSamples := by simp only [hlen]; omega
        hist := rfl
        half := by rw [waitingSample_of_even (by omega)]
        power := rfl }

theorem assembled_foldl (bs : List Byte) : Assembled bs (bs.foldl (fun u b => sourceByte b u) State.reset) := by
  induction bs using List.reverseRecOn with
  | nil => exact assembled_nil rfl
  | append_singleton bs b ih =>
    rw [List.foldl_append]
    exact ih.append_byte b

end Sys2Proof.Machine
end

section
/-!
PROOFS. The candidate test on a window (O42), and that it reads nothing beyond the window, so that a longer power
stream changes neither its answer nor its frame (for O60).
-/

namespace Sys2Proof.Machine

open Sys2Proof.Claims

/-! The test of 42_demod.md R165 -/

theorem powerAt_natCast (P : List Nat) (n : Nat) : powerAt P (n : Int) = P.getD n 0 := by
  rw [powerAt, if_neg (by omega), Int.toNat_natCast]

theorem bitAt_eq_false {P : List Nat} {p i : Nat} :
    bitAt P p i = false ↔ P.getD (p + 80 + 10 * i) 0 < P.getD (p + 85 + 10 * i) 0 := by
  rw [bitAt, powerAt_natCast, powerAt_natCast, Bool.not_eq_false', decide_eq_true_iff]

/-- A frame byte put together bit by bit, the first the most significant (30_encoding.md R90). -/
theorem frameByte_eq_concat (P : List Nat) (p k : Nat) : frameByte P p k =
    (((((((BitVec.ofBool (bitAt P p (8 * k))).concat (bitAt P p (8 * k + 1))).concat (bitAt P p (8 * k + 2))).concat
      (bitAt P p (8 * k + 3))).concat (bitAt P p (8 * k + 4))).concat (bitAt P p (8 * k + 5))).concat
      (bitAt P p (8 * k + 6))).concat (bitAt P p (8 * k + 7)) := rfl

theorem frameByte_getLsbD (P : List Nat) (p k : Nat) {j : Nat} (hj : j < 8) :
    (frameByte P p k).getLsbD (7 - j) = bitAt P p (8 * k + j) := by
  rw [frameByte_eq_concat]
  interval_cases j <;> simp [BitVec.getElem_concat]

theorem isFrameOf_frameBytes (P : List Nat) (p : Nat) : isFrameOf P p (frameBytes P p) := by
  intro i
  have hbit : 8 * (i.val / 8) + i.val % 8 = i.val := Nat.div_add_mod i.val 8
  rw [getD_toList _ (by omega), frameBytes, Vector.getElem_ofFn, frameByte_getLsbD P p _ (Nat.mod_lt _ (by decide)),
    hbit, bitAt_eq_false]

theorem sumAt_sigma (P : List Nat) (q : Int) : sumAt P q [0, 10, 35, 45] = sigma P q := by
  simp [sumAt, sigma, pAt, powerAt, add_assoc]

theorem sumAt_sigmaV (P : List Nat) (p : Int) : sumAt P p [5, 15, 20, 25, 30, 40] = sigmaV P p := by
  simp [sumAt, sigmaV, pAt, powerAt, add_assoc]

/-- The downlink format of a frame is the value of its first byte without the low three bits (30_encoding.md R91). -/
theorem df_toNat (f : Frame) : f.df.toNat = f.bytes[0].toNat / 8 := by
  have h := f.bytes[0].isLt
  rw [Frame.df, BitVec.extractLsb'_toNat, Nat.shiftRight_eq_div_pow]
  omega

theorem windowDf_eq (P : List Nat) (p : Nat) : windowDf P p = (frameBytes P p)[0].toNat / 8 :=
  (frameAt_df P p).symm.trans (df_toNat (frameAt P p))

/-- Settles O42: bit by bit, and test by test. -/
theorem windowIsAcceptedByTheCandidateTest : Obligations.WindowIsAcceptedByTheCandidateTest := by
  intro P p
  refine ⟨isFrameOf_frameBytes P p, ?_⟩
  simp only [accept, candidate, peak, valley, Bool.and_eq_true, decide_eq_true_eq, accepted, sumAt_sigma, sumAt_sigmaV,
    windowDf_eq, Config.dfAdsb, tableDrivenCrcEqualsTheBitwiseReference (frameBytes P p).toList, gt_iff_lt, ge_iff_le,
    and_assoc]

/-! A longer power stream -/

section
variable {P : List Nat} (Q : List Nat)

theorem powerAt_append {q : Int} (hq : q < P.length) : powerAt (P ++ Q) q = powerAt P q := by
  unfold powerAt
  split
  · rfl
  · exact List.getD_append _ _ _ _ (by omega)

theorem sigma_append {q : Int} (hq : q + 45 < P.length) : sigma (P ++ Q) q = sigma P q := by
  have h : ∀ o : Int, o ≤ 45 → powerAt (P ++ Q) (q + o) = powerAt P (q + o) := fun o ho =>
    powerAt_append Q (by omega)
  rw [sigma, sigma, powerAt_append Q (by omega), h 10 (by decide), h 35 (by decide), h 45 (by decide)]

theorem sigmaV_append {p : Int} (hp : p + 45 < P.length) : sigmaV (P ++ Q) p = sigmaV P p := by
  have h : ∀ o : Int, o ≤ 40 → powerAt (P ++ Q) (p + o) = powerAt P (p + o) := fun o ho =>
    powerAt_append Q (by omega)
  rw [sigmaV, sigmaV, h 5 (by decide), h 15 (by decide), h 20 (by decide), h 25 (by decide), h 30 (by decide),
    h 40 (by decide)]

theorem bitAt_append {p i : Nat} (hp : p + 1200 ≤ P.length) (hi : i < 112) : bitAt (P ++ Q) p i = bitAt P p i := by
  rw [bitAt, bitAt, powerAt_append Q (by omega), powerAt_append Q (by omega)]

theorem frameByte_append {p k : Nat} (hp : p + 1200 ≤ P.length) (hk : k < 14) :
    frameByte (P ++ Q) p k = frameByte P p k := by
  have h : ∀ j : Nat, j < 8 → bitAt (P ++ Q) p (8 * k + j) = bitAt P p (8 * k + j) := fun j hj =>
    bitAt_append Q hp (by omega)
  rw [frameByte, frameByte, bitAt_append Q hp (by omega), h 1 (by decide), h 2 (by decide), h 3 (by decide),
    h 4 (by decide), h 5 (by decide), h 6 (by decide), h 7 (by decide)]

theorem frameBytes_append {p : Nat} (hp : p + 1200 ≤ P.length) : frameBytes (P ++ Q) p = frameBytes P p :=
  congrArg Vector.ofFn (funext fun k => frameByte_append Q hp k.isLt)

/-- The answer of the candidate test depends on the window alone (42_demod.md R160, R165). -/
theorem accept_append {p : Nat} (hp : p + 1200 ≤ P.length) : accept (P ++ Q) p = accept P p := by
  simp only [accept, candidate, peak, valley, windowDf_eq, frameBytes_append Q hp]
  rw [sigma_append Q (by omega), sigma_append Q (by omega), sigma_append Q (by omega), sigmaV_append Q (by omega)]

/-- A scan stays a scan when the power stream grows (42_demod.md R174). -/
theorem scanned_append {fs : List Frame} {p : Nat} (h : Scanned P fs p) : Scanned (P ++ Q) fs p := by
  have hlen : P.length ≤ (P ++ Q).length := by simp
  induction h with
  | start => exact .start
  | found _ full acc ih =>
    rw [← frameBytes_append Q full]
    exact ih.found (full.trans hlen) ((accept_append Q full).trans acc)
  | passed _ full rej ih => exact ih.passed (full.trans hlen) ((accept_append Q full).trans rej)

end

end Sys2Proof.Machine
end

section
/-!
PROOFS. What a step does to the stream units, whatever agent moves, and the Demodulator's turn (O43).
-/

namespace Sys2Proof.Machine

open Sys2Proof.Claims

/-! The Demodulator's turn -/

theorem windowFull_iff_full {s : State} : windowFull s = true ↔ full s :=
  windowFull_iff

theorem windowFull_eq_false {s : State} : windowFull s = false ↔ ¬ full s := by
  rw [← windowFull_iff_full, Bool.not_eq_true]

/-- The model's condition for a Demodulator step is that of 42_demod.md R170. -/
theorem demodEnabled_iff {s : State} : demodEnabled s = true ↔ demodHasStep s := by
  simp only [demodEnabled, demodHasStep, Bool.and_eq_true, Bool.or_eq_true, Bool.not_eq_true', decide_eq_true_eq,
    windowFull_iff_full, windowFull_eq_false, and_assoc]

theorem demodTurn_of_disabled {s : State} (h : demodEnabled s = false) : demodTurn s = idle s := by
  simp only [demodTurn, h]
  rfl

theorem demodTurn_of_not_full {s : State} (h : demodEnabled s = true) (hw : windowFull s = false) :
    demodTurn s = { idle s with done := true } := by
  have hw' : windowFull (takeTurn s) = false := hw
  simp only [demodTurn, h, demodStep, hw', if_true]
  rfl

theorem demodTurn_of_full {s : State} (h : demodEnabled s = true) (hw : windowFull s = true) :
    demodTurn s = evalWindow (idle s) := by
  have hw' : windowFull (takeTurn s) = true := hw
  simp only [demodTurn, h, demodStep, hw', if_true]
  rfl

theorem evalWindow_of_overflow {s : State} (h : s.pos.toNat * 100 > 2 ^ 63 - 1) :
    evalWindow s = raiseFault .tsOverflow 0 s :=
  if_pos h

theorem evalWindow_of_accept {s : State} (hp : s.pos.toNat * 100 ≤ 2 ^ 63 - 1)
    (h : accept s.power s.pos.toNat = true) :
    evalWindow s = setPos (s.pos + 1200) (pushFrame (frameAt s.power s.pos.toNat) s) :=
  (if_neg (Nat.not_lt.mpr hp)).trans (if_pos h)

theorem evalWindow_of_reject {s : State} (hp : s.pos.toNat * 100 ≤ 2 ^ 63 - 1)
    (h : accept s.power s.pos.toNat = false) : evalWindow s = setPos (s.pos + 1) s :=
  (if_neg (Nat.not_lt.mpr hp)).trans (if_neg (by rw [h]; decide))

/-- Settles O43: the cases of `demodEnabled` and of the window. -/
theorem demodulatorStepsAsTheRuleSays : Obligations.DemodulatorStepsAsTheRuleSays := by
  intro s ha p
  have hpos : ∀ n : Nat, s.pos + BitVec.ofNat 64 n = BitVec.ofNat 64 (p + n) := fun n => by
    rw [BitVec.ofNat_add, BitVec.ofNat_toNat, BitVec.setWidth_eq]
  rw [step_demodulator ha, ← demodEnabled_iff, ← windowFull_iff_full]
  refine ⟨?_, ?_, ?_, ?_, ?_⟩
  · intro h
    rw [demodTurn_of_disabled (Bool.eq_false_iff.mpr h)]
  · intro h hw
    rw [demodTurn_of_not_full h (Bool.eq_false_iff.mpr hw)]
  · intro h hw hp
    rw [demodTurn_of_full h hw, evalWindow_of_overflow (s := idle s) hp]
    rfl
  · intro h hw hp hacc
    rw [demodTurn_of_full h hw, evalWindow_of_accept (s := idle s) hp hacc, ← hpos]
    rfl
  · intro h hw hp hrej
    rw [demodTurn_of_full h hw, evalWindow_of_reject (s := idle s) hp hrej, ← hpos]
    rfl

/-! What a step does to the stream units -/

/-- The stream units are as they were. -/
structure StreamKept (s t : State) : Prop where
  done : t.done = s.done
  eos : t.eos = s.eos
  pos : t.pos = s.pos
  lowByte : t.lowByte = s.lowByte
  nSamples : t.nSamples = s.nSamples
  hist : t.hist = s.hist
  half : t.half = s.half
  power : t.power = s.power

/-- No command touches the stream units; the FIFO stands between them and the host. -/
theorem Effect.streamKept {i : Instr} {s t : State} (h : Effect s i t) : StreamKept s t := by
  cases h <;> exact ⟨rfl, rfl, rfl, rfl, rfl, rfl, rfl, rfl⟩

/-- A host's step that is no soft reset does not touch the stream units (60_exceptions.md R273). -/
theorem HostEffect.streamKept {s t : State} (h : HostEffect s t) (hr : softResetNext s = false) : StreamKept s t := by
  cases h with
  | reset hr' => exact absurd (hr.symm.trans hr') (by decide)
  | command w i t _ _ _ he => exact { he.streamKept with }
  | operand t _ hs => rw [hs]; exact ⟨rfl, rfl, rfl, rfl, rfl, rfl, rfl, rfl⟩
  | _ => exact ⟨rfl, rfl, rfl, rfl, rfl, rfl, rfl, rfl⟩

/-- Everything a step that is no soft reset can do to the stream units: with the bytes it takes from the Source, the
frames it appends, and the condition under which it does so. -/
inductive StreamMove (s : State) : List Byte → List Frame → State → Prop where
  | kept (t : State) (h : StreamKept s t) (hq : nextAgent s ≠ .host → t.fifo = s.fifo) : StreamMove s [] [] t
  | ended (he : s.eos = false) : StreamMove s [] [] (endStream (takeItem (takeTurn s)))
  | delivered (b : Byte) (he : s.eos = false) : StreamMove s [b] [] (sourceByte b (takeItem (takeTurn s)))
  | done (he : s.eos = true) (hw : ¬ full s) : StreamMove s [] [] { takeTurn s with done := true }
  | found (p : DWord) (hd : s.done = false) (hw : full s) (hacc : accept s.power s.pos.toNat = true)
      (hp : p.toNat = s.pos.toNat + 1200) : StreamMove s [] [frameAt s.power s.pos.toNat]
        (setPos p (pushFrame (frameAt s.power s.pos.toNat) (takeTurn s)))
  | passed (p : DWord) (hd : s.done = false) (hw : full s) (hrej : accept s.power s.pos.toNat = false)
      (hp : p.toNat = s.pos.toNat + 1) : StreamMove s [] [] (setPos p (takeTurn s))

theorem streamMove_takeTurn (s : State) : StreamMove s [] [] (takeTurn s) :=
  .kept _ ⟨rfl, rfl, rfl, rfl, rfl, rfl, rfl, rfl⟩ fun _ => rfl

/-! The bytes and the frames of a step, by its agent -/

theorem deliveredNext_of_ne {s : State} (h : nextAgent s ≠ .source) : deliveredNext s = [] := by
  unfold deliveredNext
  split
  · exact absurd (by assumption) h
  · rfl

theorem deliveredNext_of_disabled {s : State} (h : sourceEnabled (nextItem s) s = false) : deliveredNext s = [] := by
  unfold deliveredNext
  split
  next b _ hi => rw [hi] at h; rw [h]; rfl
  · rfl

theorem deliveredNext_of_endOfStream {s : State} (h : nextItem s = .endOfStream) : deliveredNext s = [] := by
  unfold deliveredNext
  split
  next b _ hi => exact absurd (h.symm.trans hi) (by simp)
  · rfl

theorem deliveredNext_of_byte {s : State} {b : Byte} (ha : nextAgent s = .source) (hi : nextItem s = .byte b)
    (h : sourceEnabled (.byte b) s = true) : deliveredNext s = [b] := by
  simp only [deliveredNext, ha, hi, h, if_true]

theorem appendedNext_of_ne {s : State} (h : nextAgent s ≠ .demodulator) : appendedNext s = [] := by
  unfold appendedNext
  split
  · exact absurd (by assumption) h
  · rfl

theorem appendedNext_of_demodulator {s : State} (ha : nextAgent s = .demodulator) : appendedNext s =
    if demodEnabled s && windowFull s && decide (s.pos.toNat * 100 ≤ 2 ^ 63 - 1) && accept s.power s.pos.toNat
    then [frameAt s.power s.pos.toNat] else [] := by
  unfold appendedNext
  rw [ha]
  rfl

theorem source_streamMove {s : State} (ha : nextAgent s = .source) :
    StreamMove s (deliveredNext s) [] (sourceTurn s) := by
  obtain ⟨hen, hs⟩ | ⟨hi, -, he, hs⟩ | ⟨b, hi, hf, he, hroom, hs⟩ := sourceTurn_cases s
  · rw [hs, deliveredNext_of_disabled hen]
    exact streamMove_takeTurn s
  · rw [hs, deliveredNext_of_endOfStream hi]
    exact .ended he
  · rw [hs, deliveredNext_of_byte ha hi (by simp [sourceEnabled, hf, he, hroom])]
    exact .delivered b he

theorem demodulator_streamMove {s : State} (ha : nextAgent s = .demodulator) :
    StreamMove s [] (appendedNext s) (demodTurn s) := by
  have happ := appendedNext_of_demodulator ha
  obtain ⟨hen, hs⟩ | ⟨-, hw, he, hs⟩ | ⟨hen, hw, -, hs⟩ := demodTurn_cases s
  · rw [hs, happ, hen]
    exact streamMove_takeTurn s
  · rw [hs, happ, hw, Bool.and_false]
    exact .done he (windowFull_eq_false.mp hw)
  · have hd := demodEnabled_done hen
    have hfull := windowFull_iff_full.mp hw
    have heval := evalWindow_cases (takeTurn s)
    simp only [takeTurn_pos, takeTurn_power] at heval
    obtain ⟨hp, hev⟩ | ⟨hp, hacc, hev⟩ | ⟨hp, hrej, hev⟩ := heval
    · rw [hs, hev, happ, decide_eq_false (Nat.not_le.mpr hp), Bool.and_false]
      exact .kept _ ⟨rfl, rfl, rfl, rfl, rfl, rfl, rfl, rfl⟩ fun _ => rfl
    · rw [hs, hev, happ, hen, hw, decide_eq_true hp, hacc]
      exact .found _ hd hfull hacc (toNat_pos_add hp (by decide))
    · rw [hs, hev, happ, hrej, Bool.and_false]
      exact .passed _ hd hfull hrej (toNat_pos_add hp (by decide))

/-- Inversion of the step, for the stream units: one of the moves listed, with the bytes and the frames of
42_demod.md R174. -/
theorem step_streamMove {s t : State} (h : step s = .next t) (hr : softResetNext s = false) :
    StreamMove s (deliveredNext s) (appendedNext s) t := by
  cases ha : nextAgent s with
  | host =>
    rw [deliveredNext_of_ne (by simp [ha]), appendedNext_of_ne (by simp [ha])]
    exact .kept t ((host_effect ha h).streamKept hr) fun hne => absurd ha hne
  | source =>
    rw [step_source ha] at h
    cases h
    rw [appendedNext_of_ne (by simp [ha])]
    exact source_streamMove ha
  | demodulator =>
    rw [step_demodulator ha] at h
    cases h
    rw [deliveredNext_of_ne (by simp [ha])]
    exact demodulator_streamMove ha

end Sys2Proof.Machine
end

section
/-!
PROOFS. Every step follows the scan of its byte stream (O60), the closed form of the power stream and its remainders
(O41), and the FIFO as a queue (O44).
-/

namespace Sys2Proof.Machine

open Sys2Proof.Claims

/-! The scan (O60) -/

section
variable {bytes : List Byte} {fs : List Frame} {s t : State}

theorem follows_nil (h : s.fresh) : Follows [] [] s := by
  rw [h]
  exact ⟨rfl, rfl, rfl, rfl, rfl, .start, nofun⟩

/-- Until the stream ends, following it means holding what its bytes leave behind. -/
theorem assembled_of_follows (h : Follows bytes fs s) (he : s.eos = false) : Assembled bytes s :=
  have ha := assembled_foldl bytes
  { lowByte := h.lowByte.trans (by rw [he]; exact ha.lowByte)
    nSamples := h.nSamples
    hist := h.hist.trans ha.hist
    half := h.half.trans (by rw [he]; exact ha.half)
    power := h.power }

theorem follows_of_assembled (h : Assembled bytes s) (he : s.eos = false) (hd : s.done = false)
    (hs : Scanned (powers bytes) fs s.pos.toNat) : Follows bytes fs s :=
  have ha := assembled_foldl bytes
  { lowByte := by rw [he]; exact h.lowByte.trans ha.lowByte.symm
    nSamples := h.nSamples
    hist := h.hist.trans ha.hist.symm
    half := by rw [he]; exact h.half.trans ha.half.symm
    power := h.power
    scanned := hs
    done := fun hd' => absurd (hd.symm.trans hd') (by decide) }

theorem follows_of_streamKept (h : Follows bytes fs s) (hk : StreamKept s t) : Follows bytes fs t where
  lowByte := by rw [hk.lowByte, hk.eos, h.lowByte]
  nSamples := hk.nSamples.trans h.nSamples
  hist := hk.hist.trans h.hist
  half := by rw [hk.half, hk.eos, h.half]
  power := hk.power.trans h.power
  scanned := by rw [hk.pos]; exact h.scanned
  done := by rw [hk.done, hk.eos, hk.power, hk.pos]; exact h.done

/-- A delivered byte: no end of stream has come, so DONE is 0, and the scan goes on in the longer power stream. -/
theorem follows_sourceByte (h : Follows bytes fs s) (he : s.eos = false) (b : Byte) :
    Follows (bytes ++ [b]) fs (sourceByte b s) := by
  have hd : s.done = false := Bool.eq_false_iff.mpr fun hd => absurd (he.symm.trans (h.done hd).1) (by decide)
  have hnext := (assembled_of_follows h he).append_byte b
  obtain ⟨Q, hQ⟩ := exists_powers_append bytes b
  rw [sourceByte_same] at hnext ⊢
  exact follows_of_assembled hnext he hd (hQ.symm ▸ scanned_append Q h.scanned)

/-- A move of the stream units keeps the state on the scan, which a full window takes on by one position or by W. -/
theorem follows_streamMove (h : Follows bytes fs s) {bs : List Byte} {gs : List Frame} (hm : StreamMove s bs gs t) :
    Follows (bytes ++ bs) (fs ++ gs) t := by
  have hscan : Scanned s.power fs s.pos.toNat := h.power.symm ▸ h.scanned
  cases hm with
  | kept _ hk => simpa using follows_of_streamKept h hk
  | ended he =>
    rw [List.append_nil, List.append_nil]
    exact { h with
      lowByte := rfl
      half := rfl
      done := fun hd => ⟨rfl, (h.done hd).2⟩ }
  | delivered b he =>
    rw [List.append_nil]
    exact follows_sourceByte (s := takeItem (takeTurn s)) { h with } he b
  | done he hw =>
    rw [List.append_nil, List.append_nil]
    exact { h with done := fun _ => ⟨he, Nat.lt_of_not_le hw⟩ }
  | found p hd hw hacc hp =>
    have hnext : Scanned s.power (fs ++ [frameAt s.power s.pos.toNat]) p.toNat := hp ▸ hscan.found hw hacc
    rw [List.append_nil]
    exact { h with
      scanned := by rw [← h.power]; exact hnext
      done := fun hd' => absurd (hd.symm.trans hd') (by decide) }
  | passed p hd hw hrej hp =>
    have hnext : Scanned s.power fs p.toNat := hp ▸ hscan.passed hw hrej
    rw [List.append_nil, List.append_nil]
    exact { h with
      scanned := by rw [← h.power]; exact hnext
      done := fun hd' => absurd (hd.symm.trans hd') (by decide) }

end

/-- Settles O60, by the moves of the stream units. -/
theorem everyStepFollowsTheScanOfItsStream : Obligations.EveryStepFollowsTheScanOfItsStream := by
  refine ⟨fun s hs => follows_nil hs, fun bytes fs s t h hstep => ⟨fun hr => ?_, fun hr => ?_⟩⟩
  · exact follows_streamMove h (step_streamMove hstep hr)
  · rw [step_softReset hr hstep]
    exact follows_nil rfl

/-! The closed form and the remainders (O41) -/

theorem waitingByte_isSome (bs : List Byte) : (waitingByte bs).isSome = true ↔ bs.length % 2 = 1 := by
  unfold waitingByte
  split <;> simp [*]

theorem waitingSample_isSome (bs : List Byte) : (waitingSample bs).isSome = true ↔ bs.length / 2 % 2 = 1 := by
  unfold waitingSample
  split <;> simp [*]

/-- A delivered byte does not end the stream. -/
theorem sourceByte_eos (b : Byte) (s : State) : (sourceByte b s).eos = s.eos := by
  rw [sourceByte_same]

/-- The move that sets EOS is the end of the stream. -/
theorem StreamMove.eq_of_sets_eos {bs : List Byte} {gs : List Frame} {s t : State} (h : StreamMove s bs gs t)
    (hs : s.eos = false) (ht : t.eos = true) : t = endStream (takeItem (takeTurn s)) := by
  have hne : t.eos ≠ s.eos := by simp [hs, ht]
  cases h with
  | kept _ hk => exact absurd hk.eos hne
  | ended => rfl
  | delivered b => exact absurd (sourceByte_eos b _) hne
  | done => exact absurd rfl hne
  | found => exact absurd rfl hne
  | passed => exact absurd rfl hne

/-- After the end of the stream no move adds to it. -/
theorem StreamMove.after_eos {bs : List Byte} {gs : List Frame} {s t : State} (h : StreamMove s bs gs t)
    (hs : s.eos = true) : t.eos = true ∧ t.nSamples = s.nSamples ∧ t.power = s.power := by
  cases h with
  | kept _ hk => exact ⟨hk.eos.trans hs, hk.nSamples, hk.power⟩
  | ended he => exact absurd (he.symm.trans hs) (by decide)
  | delivered b he => exact absurd (he.symm.trans hs) (by decide)
  | done => exact ⟨hs, rfl, rfl⟩
  | found => exact ⟨hs, rfl, rfl⟩
  | passed => exact ⟨hs, rfl, rfl⟩

theorem sourceTurn_fault (s : State) : (sourceTurn s).fault = s.fault := by
  obtain ⟨-, hs⟩ | ⟨-, -, -, hs⟩ | ⟨b, -, -, -, -, hs⟩ := sourceTurn_cases s
  · rw [hs]
    rfl
  · rw [hs]
    rfl
  · rw [hs, sourceByte_same]
    rfl

/-- Settles O41: what the bytes leave behind, and the moves that set EOS and that follow it. -/
theorem powerStreamIsTheClosedForm : Obligations.PowerStreamIsTheClosedForm := by
  refine ⟨fun bs => ?_, fun s t h hs ht => ?_, fun s t h hs hr => (step_streamMove h hr).after_eos hs,
    fun s t h ha => ?_⟩
  · obtain ⟨hlow, hn, -, hhalf, hpow⟩ := assembled_foldl bs
    exact ⟨hn, hpow, by rw [hpow, length_powers], by rw [hlow, waitingByte_isSome],
      by rw [hhalf, waitingSample_isSome]⟩
  · have hr : softResetNext s = false := Bool.eq_false_iff.mpr fun hr => by
      rw [step_softReset hr h] at ht
      cases ht
    rw [(step_streamMove h hr).eq_of_sets_eos hs ht]
    exact ⟨rfl, rfl, rfl, rfl⟩
  · rw [step_source ha] at h
    cases h
    exact sourceTurn_fault s

/-! The FIFO (O44) -/

/-- The stream agents take nothing from the FIFO, and append what `appendedNext` says. -/
theorem StreamMove.fifo {bs : List Byte} {gs : List Frame} {s t : State} (h : StreamMove s bs gs t)
    (ha : nextAgent s ≠ .host) : t.fifo = s.fifo ++ gs := by
  cases h with
  | kept _ _ hq => rw [hq ha, List.append_nil]
  | delivered b => rw [sourceByte_same, List.append_nil]; rfl
  | found => rfl
  | ended | done | passed => exact (List.append_nil _).symm

/-- The host takes from the FIFO only by a FIFO_POP that runs, and by a reset. -/
theorem HostEffect.fifo {s t : State} (h : HostEffect s t) (ha : nextAgent s = .host) (hr : softResetNext s = false)
    (hp : ¬ popNext s) : t.fifo = s.fifo := by
  cases h with
  | reset hr' => exact absurd (hr.symm.trans hr') (by decide)
  | command w i t hacc hf hd he =>
    refine he.fifo_eq fun hi => hp ⟨hf, ha, ?_⟩
    obtain ⟨-, rfl⟩ := wellFormed_and_encode_of_decode hd
    rw [hacc, hi]
    rfl
  | operand t _ hs => rw [hs]; rfl
  | _ => rfl

/-- A FIFO_POP that runs takes the head into FR (43_rawframe.md R199). -/
theorem step_pop {s t : State} (h : step s = .next t) (hp : popNext s) :
    t.fifo = s.fifo.tail ∧ ∀ e ∈ s.fifo.head?, t.fr = e := by
  obtain ⟨hf, ha, hacc⟩ := hp
  have hd : decode 0x00000040 = .ok .fifoPop := decode_encode (i := .fifoPop) rfl
  rw [step_write_cmd ha hacc hf, runCommand_of_decode _ hd] at h
  obtain ⟨hq, rfl⟩ | ⟨e, rest, v, hq, rfl⟩ := execFifoPop_cases h
  · replace hq : s.fifo = [] := hq
    rw [hq]
    exact ⟨hq, nofun⟩
  · replace hq : s.fifo = e :: rest := hq
    rw [hq]
    exact ⟨rfl, fun f hf => Option.some.inj hf⟩

/-- A step that is neither a soft reset nor a FIFO_POP only appends to the FIFO. -/
theorem step_fifo {s t : State} (h : step s = .next t) (hr : softResetNext s = false) (hp : ¬ popNext s) :
    t.fifo = s.fifo ++ appendedNext s := by
  by_cases ha : nextAgent s = .host
  · rw [appendedNext_of_ne (by simp [ha]), List.append_nil]
    exact (host_effect ha h).fifo ha hr hp
  · exact (step_streamMove h hr).fifo ha

/-- Only the Demodulator appends, one frame, and only below FIFO_DEPTH (42_demod.md R170, R171). -/
theorem appendedNext_cases (s : State) : appendedNext s = [] ∨
    nextAgent s = .demodulator ∧ s.fifo.length < Config.fifoDepth ∧ (appendedNext s).length = 1 := by
  by_cases ha : nextAgent s = .demodulator
  · rw [appendedNext_of_demodulator ha]
    split
    next h =>
      simp only [Bool.and_eq_true] at h
      obtain ⟨⟨⟨hen, hw⟩, -⟩, -⟩ := h
      obtain ⟨-, -, -, hroom | hempty⟩ := demodEnabled_iff.mp hen
      · exact .inr ⟨ha, hroom.2, rfl⟩
      · exact absurd (windowFull_iff_full.mp hw) hempty.1
    next => exact .inl rfl
  · exact .inl (appendedNext_of_ne ha)

/-- Settles O44: emptied by a reset, popped by FIFO_POP, else only appended to. -/
theorem fifoIsAQueueBetweenDemodulatorAndHost : Obligations.FifoIsAQueueBetweenDemodulatorAndHost := by
  intro s t h
  have hreset : softResetNext s = true → t.fifo = [] := fun hr => by
    rw [step_softReset hr h]
    rfl
  refine ⟨hreset, fun _ hp => step_pop h hp, fun hr hp => step_fifo h hr hp, fun hne => ?_, fun hle => ?_⟩
  · obtain happ | ⟨ha, hroom, -⟩ := appendedNext_cases s
    · exact absurd happ hne
    · exact ⟨ha, hroom⟩
  · by_cases hr : softResetNext s = true
    · rw [hreset hr]
      exact Nat.zero_le _
    · by_cases hp : popNext s
      · rw [(step_pop h hp).1, List.length_tail]
        omega
      · rw [step_fifo h (Bool.eq_false_iff.mpr hr) hp]
        obtain happ | ⟨-, hroom, hone⟩ := appendedNext_cases s
        · rwa [happ, List.append_nil]
        · rw [List.length_append, hone]
          exact hroom

end Sys2Proof.Machine
end

section
/-!
PROOFS. Stream runs (O50, O51): a run follows its bytes and keeps the invariant, so what it has appended is what the
scan has found, and the scan's positions stay below the bound at which a timestamp would wrap.
-/

namespace Sys2Proof.Machine

open Sys2Proof.Claims

/-! Runs -/

theorem StreamRun.follows {bytes : List Byte} {fs : List Frame} {s : State} (h : StreamRun bytes fs s) :
    Follows bytes fs s := by
  induction h with
  | fresh s hs => exact follows_nil hs
  | step _ hr hstep ih => exact follows_streamMove ih (step_streamMove hstep hr)

theorem StreamRun.inv {bytes : List Byte} {fs : List Frame} {s : State} (h : StreamRun bytes fs s) : s.Inv := by
  induction h with
  | fresh s hs =>
    rw [hs]
    exact inv_softReset s
  | step _ _ hstep ih => exact everyStepKeepsTheInvariant _ _ ih hstep

/-! The frames of a scan (O50) -/

theorem scan_of_not_full {P : List Nat} {p : Nat} (fuel : Nat) (h : P.length < p + 1200) : scan P fuel p = [] := by
  cases fuel with
  | zero => rfl
  | succ fuel => exact if_neg (Nat.not_le.mpr h)

theorem scan_of_accept {P : List Nat} {p : Nat} (fuel : Nat) (hfull : p + 1200 ≤ P.length)
    (hacc : accept P p = true) : scan P (fuel + 1) p = frameAt P p :: scan P fuel (p + 1200) :=
  (if_pos hfull).trans (if_pos hacc)

theorem scan_of_reject {P : List Nat} {p : Nat} (fuel : Nat) (hfull : p + 1200 ≤ P.length)
    (hrej : accept P p = false) : scan P (fuel + 1) p = scan P fuel (p + 1) :=
  (if_pos hfull).trans (if_neg (by rw [hrej]; decide))

/-- The whole scan is what has been found so far and the scan of the rest, for which enough fuel is left. -/
theorem scan_eq_append {P : List Nat} {fs : List Frame} {p : Nat} (h : Scanned P fs p) :
    ∃ fuel, P.length < fuel + p ∧ scan P (P.length + 1) 0 = fs ++ scan P fuel p := by
  induction h with
  | start => exact ⟨P.length + 1, Nat.lt_succ_self _, rfl⟩
  | found _ full acc ih =>
    obtain ⟨fuel, hfuel, hscan⟩ := ih
    obtain ⟨rest, rfl⟩ : ∃ rest, fuel = rest + 1 := ⟨fuel - 1, by omega⟩
    refine ⟨rest, by omega, ?_⟩
    rw [hscan, scan_of_accept rest full acc, List.append_assoc]
    rfl
  | passed _ full rej ih =>
    obtain ⟨fuel, hfuel, hscan⟩ := ih
    obtain ⟨rest, rfl⟩ : ∃ rest, fuel = rest + 1 := ⟨fuel - 1, by omega⟩
    exact ⟨rest, by omega, by rw [hscan, scan_of_reject rest full rej]⟩

/-- Settles O50: the frames found so far begin the scan, and no position is left once DONE is set. -/
theorem everyRunAppendsTheFramesOfItsBytes : Obligations.EveryRunAppendsTheFramesOfItsBytes := by
  intro bytes fs s h
  have hf := h.follows
  obtain ⟨fuel, -, hscan⟩ := scan_eq_append hf.scanned
  refine ⟨⟨_, hscan.symm⟩, fun hd => ?_⟩
  obtain ⟨-, hlt⟩ := hf.done hd
  rw [hf.power] at hlt
  rw [frames, hscan, scan_of_not_full fuel hlt, List.append_nil]

/-! The positions of a scan (O51) -/

/-- The frames found stand at accepted positions, W apart, each at least W before the position reached, which is within
the power stream. -/
theorem scanned_positions {P : List Nat} {fs : List Frame} {p : Nat} (h : Scanned P fs p) : p ≤ P.length ∧
    ∃ ps : List Nat, fs = ps.map (frameAt P) ∧ ps.Pairwise (fun a b => a + 1200 ≤ b) ∧
      ∀ q ∈ ps, accept P q = true ∧ q + 1200 ≤ p := by
  induction h with
  | start => exact ⟨Nat.zero_le _, [], rfl, .nil, nofun⟩
  | @found _ p _ full acc ih =>
    obtain ⟨-, ps, rfl, hsp, hps⟩ := ih
    refine ⟨full, ps ++ [p], by rw [List.map_append]; rfl, ?_, fun q hq => ?_⟩
    · exact List.pairwise_append.mpr
        ⟨hsp, List.pairwise_singleton _ _, fun a ha b hb => List.mem_singleton.mp hb ▸ (hps a ha).2⟩
    · obtain hq | hq := List.mem_append.mp hq
      · exact ⟨(hps q hq).1, by have := (hps q hq).2; omega⟩
      · rw [List.mem_singleton.mp hq]
        exact ⟨acc, le_rfl⟩
  | passed _ full _ ih =>
    obtain ⟨-, ps, hfs, hsp, hps⟩ := ih
    exact ⟨by omega, ps, hfs, hsp, fun q hq => ⟨(hps q hq).1, Nat.le_succ_of_le (hps q hq).2⟩⟩

/-- Settles O51: the positions of the scan, whose timestamps do not wrap since POS is bounded (42_demod.md R168). -/
theorem appendedFramesAreSpacedAndValid : Obligations.AppendedFramesAreSpacedAndValid := by
  intro bytes fs s h
  have hf := h.follows
  have hbound : s.pos.toNat ≤ 92233720368547758 + 1200 := h.inv.posBounded
  obtain ⟨hin, ps, rfl, hsp, hps⟩ := scanned_positions hf.scanned
  rw [length_powers] at hin
  have hbytes : ∀ q ∈ ps, 4 * (q + 1200) ≤ bytes.length := fun q hq => by
    rw [Nat.mul_comm]
    exact Nat.mul_le_of_le_div 4 _ _ ((hps q hq).2.trans hin)
  have hts : ∀ q ∈ ps, (frameAt (powers bytes) q).ts.toNat = q * 100 := fun q hq =>
    frameAt_ts_toNat _ (by have hle := (hps q hq).2; omega)
  refine ⟨?_, ?_, fun hlt => ?_⟩
  · refine List.pairwise_map.mpr (hsp.imp_of_mem fun {a b} ha hb hab => ?_)
    rw [hts a ha, hts b hb]
    omega
  · intro f hfs
    obtain ⟨q, hq, rfl⟩ := List.mem_map.mp hfs
    obtain ⟨hcrc, hdf⟩ := accept_frame (hps q hq).1
    exact ⟨hcrc, (df_toNat _).symm.trans hdf, q, hts q hq, hbytes q hq⟩
  · refine List.map_eq_nil_iff.mpr (List.eq_nil_iff_forall_not_mem.mpr fun q hq => ?_)
    have hq := hbytes q hq
    omega

end Sys2Proof.Machine
end

section
/-!
PROOFS. The RawFrame and FIFO commands and NOP (O8, O17, O18, O19, O20, O21).
-/

namespace Sys2Proof.Machine

open Sys2Proof.Claims

/-! The fields of a frame in plain arithmetic -/

/-- The ICAO address is the big-endian number of bytes 1-3 (30_encoding.md R91). -/
theorem icao_toNat (f : Frame) : f.icao.toNat = beNat f.bytes.toList 1 4 := by
  simp only [Frame.icao, toNat_append_byte, ← getD_toList]
  rw [beNat_succ _ (by omega), beNat_succ _ (by omega), beNat_succ _ le_rfl, beNat_self, Nat.zero_mul, Nat.zero_add]

/-- The payload is the big-endian number of bytes 4-10 (30_encoding.md R91). -/
theorem payload_toNat (f : Frame) : f.payload.toNat = beNat f.bytes.toList 4 11 := by
  simp only [Frame.payload, toNat_append_byte, ← getD_toList]
  rw [beNat_succ _ (by omega), beNat_succ _ (by omega), beNat_succ _ (by omega), beNat_succ _ (by omega),
    beNat_succ _ (by omega), beNat_succ _ (by omega), beNat_succ _ le_rfl, beNat_self, Nat.zero_mul, Nat.zero_add]

/-- The type code is the payload without its low 51 bits (30_encoding.md R92). -/
theorem typeCode_toNat (f : Frame) : f.typeCode.toNat = f.payload.toNat / 2 ^ 51 := by
  rw [Frame.typeCode, BitVec.extractLsb'_toNat, Nat.shiftRight_eq_div_pow]
  omega

/-- The type code is byte 4 without its low three bits (43_rawframe.md R194). -/
theorem typeCode_toNat_eq_byte (f : Frame) : f.typeCode.toNat = f.bytes[4].toNat / 8 := by
  rw [typeCode_toNat]
  simp only [Frame.payload, toNat_append_byte]
  omega

theorem cprLat_eq (f : Frame) : f.cprLat = BitVec.ofNat 17 (f.payload.toNat / 2 ^ 17 % 2 ^ 17) := by
  rw [← BitVec.toNat_inj, Frame.cprLat, BitVec.extractLsb'_toNat, Nat.shiftRight_eq_div_pow, BitVec.toNat_ofNat,
    Nat.mod_mod]

theorem cprLon_eq (f : Frame) : f.cprLon = BitVec.ofNat 17 (f.payload.toNat % 2 ^ 17) := by
  rw [← BitVec.toNat_inj, Frame.cprLon, BitVec.extractLsb'_toNat, Nat.shiftRight_zero, BitVec.toNat_ofNat,
    Nat.mod_mod]

/-- The parity is payload bit 34 (30_encoding.md R92). -/
theorem cprOdd_eq (f : Frame) : f.cprOdd = decide (f.payload.toNat / 2 ^ 34 % 2 = 1) := by
  rw [Frame.cprOdd, BitVec.getLsbD, Nat.testBit_eq_decide_div_mod_eq]

/-- The model's dispatch class is the claims'. -/
theorem dispatchClass_eq_classOf (tc : Nat) : dispatchClass tc = classOf tc := by
  simp only [dispatchClass, classOf, Finset.mem_union, Finset.mem_Icc]

/-! The frame accessors -/

theorem needFrame_of_valid {s : State} (k : State) (h : s.frValid = true) : needFrame s k = .next k :=
  if_pos h

theorem needFrame_of_invalid {s : State} (k : State) (h : s.frValid = false) :
    needFrame s k = .next (raised .noFrame s.cmd s) := by
  rw [needFrame, h]
  rfl

/-- An accessor of a field presents the field's value (43_rawframe.md R191-R194). -/
theorem needFrame_setPresent_of_valid {s : State} {w n : Nat} (v : BitVec w) (h : s.frValid = true)
    (hv : v.toNat = n) :
    needFrame s (setPresent (v.setWidth 64) s) = .next (presented (BitVec.ofNat 64 n) s) := by
  rw [needFrame_of_valid _ h, ← hv, BitVec.ofNat_toNat]
  rfl

/-- Settles O18: each accessor asks for a frame, then presents a field of it. -/
theorem frameAccessorsGiveTheFieldsOrFault : Obligations.FrameAccessorsGiveTheFieldsOrFault := by
  refine ⟨encodedAs_of_encode rfl rfl, encodedAs_of_encode rfl rfl, encodedAs_of_encode rfl rfl,
    encodedAs_of_encode rfl rfl, fun s h => ?_, fun s h i hi => ?_⟩
  · exact ⟨needFrame_setPresent_of_valid _ h (df_toNat s.fr), needFrame_setPresent_of_valid _ h (icao_toNat s.fr),
      needFrame_setPresent_of_valid _ h (payload_toNat s.fr),
      needFrame_setPresent_of_valid _ h (typeCode_toNat_eq_byte s.fr)⟩
  · simp only [List.mem_cons, List.not_mem_nil, or_false] at hi
    rcases hi with rfl | rfl | rfl | rfl <;> exact needFrame_of_invalid _ h

/-! RF_CLASS and RF_CPRLOAD -/

theorem execRfClass_of_none {s : State} (h : s.frValid = true) (hc : dispatchClass s.fr.typeCode.toNat = 0) :
    execRfClass s = .next (absented s) := by
  rw [execRfClass, needFrame_of_valid _ h, if_pos hc]
  rfl

theorem execRfClass_of_class {s : State} (h : s.frValid = true) (hc : dispatchClass s.fr.typeCode.toNat ≠ 0) :
    execRfClass s = .next (presented (BitVec.ofNat 64 (dispatchClass s.fr.typeCode.toNat)) s) := by
  rw [execRfClass, needFrame_of_valid _ h, if_neg hc]
  rfl

/-- Settles O19, by the class of the frame's type code. -/
theorem rfClassGivesTheDispatchClass : Obligations.RfClassGivesTheDispatchClass := by
  refine ⟨encodedAs_of_encode rfl rfl, fun s => ⟨needFrame_of_invalid _, ?_⟩⟩
  rw [← typeCode_toNat_eq_byte, ← dispatchClass_eq_classOf]
  exact ⟨execRfClass_of_none, execRfClass_of_class⟩

theorem execRfCprload_of_not_position {s : State} (h : s.frValid = true)
    (hc : dispatchClass s.fr.typeCode.toNat ≠ 2) : execRfCprload s = .next (absented s) := by
  rw [execRfCprload, needFrame_of_valid _ h, if_pos hc]
  rfl

theorem execRfCprload_of_even {s : State} (h : s.frValid = true) (hc : dispatchClass s.fr.typeCode.toNat = 2)
    (hp : s.fr.cprOdd = false) :
    execRfCprload s = .next (presented 0 { s with cprX0 := s.fr.cprLon, cprY0 := s.fr.cprLat }) := by
  rw [execRfCprload, needFrame_of_valid _ h, if_neg (not_not.mpr hc), hp]
  rfl

theorem execRfCprload_of_odd {s : State} (h : s.frValid = true) (hc : dispatchClass s.fr.typeCode.toNat = 2)
    (hp : s.fr.cprOdd = true) :
    execRfCprload s = .next (presented 1 { s with cprX1 := s.fr.cprLon, cprY1 := s.fr.cprLat }) := by
  rw [execRfCprload, needFrame_of_valid _ h, if_neg (not_not.mpr hc), hp]
  rfl

/-- Settles O20, by the class of the frame's type code, then by its parity. -/
theorem rfCprloadLoadsTheHalfOfItsParity : Obligations.RfCprloadLoadsTheHalfOfItsParity := by
  refine ⟨encodedAs_of_encode rfl rfl, fun s => ⟨needFrame_of_invalid _, ?_⟩⟩
  simp only [← payload_toNat, ← typeCode_toNat, ← dispatchClass_eq_classOf, ← cprLon_eq, ← cprLat_eq]
  refine ⟨execRfCprload_of_not_position, fun h hc hp => ?_, fun h hc hp => ?_⟩
  · exact execRfCprload_of_even h hc (by rw [cprOdd_eq, hp]; rfl)
  · exact execRfCprload_of_odd h hc (by rw [cprOdd_eq, hp]; rfl)

/-! RF_OF -/

/-- The frame RF_OF builds holds the first 14 bytes of BBUF. -/
theorem bbufFrame_toList (s : State) : (bbufFrame s).toList = s.bbuf.toList.take 14 := by
  apply List.ext_getElem <;> simp [bbufFrame]

theorem execRfOf_of_bad_length {s : State} (hl : s.blen.val ≠ 14) :
    execRfOf s = .next (raised .frameLength s.cmd s) :=
  if_pos hl

theorem execRfOf_of_negative {s : State} (hl : s.blen.val = 14) (ht : s.ts.toInt < 0) :
    execRfOf s = .next (raised .negTimestamp s.cmd s) := by
  rw [execRfOf, if_neg (not_not.mpr hl), if_pos (by rw [BitVec.msb_eq_toInt, decide_eq_true ht])]
  rfl

theorem execRfOf_of_legal {s : State} (hl : s.blen.val = 14) (ht : 0 ≤ s.ts.toInt) : execRfOf s =
    if crc (bbufFrame s).toList ≠ 0 then .next (absented { s with frValid := false })
    else .next (presented 0 { s with fr := { ts := s.ts, bytes := bbufFrame s }, frValid := true }) := by
  have hmsb : s.ts.msb = false := by rw [BitVec.msb_eq_toInt, decide_eq_false (not_lt.mpr ht)]
  rw [execRfOf, if_neg (not_not.mpr hl), hmsb]
  rfl

/-- Settles O17, by the two checks of RF_OF, then by the CRC. -/
theorem rfOfBuildsTheFrameThroughTheGate : Obligations.RfOfBuildsTheFrameThroughTheGate := by
  refine ⟨encodedAs_of_encode rfl rfl, fun s bytes hb => ?_⟩
  obtain rfl : bytes = bbufFrame s := Vector.toList_inj.mp (hb.trans (bbufFrame_toList s).symm)
  refine ⟨execRfOf_of_bad_length, execRfOf_of_negative, fun hl ht hc => ?_, fun hl ht hc => ?_⟩
  · exact (execRfOf_of_legal hl ht).trans (if_pos hc)
  · exact (execRfOf_of_legal hl ht).trans (if_neg (not_not.mpr hc))

/-! FIFO_POP -/

theorem execFifoPop_of_nil {s : State} (h : s.fifo = []) : execFifoPop s = .next (raised .fifoEmpty s.cmd s) := by
  simp only [execFifoPop, h]
  rfl

theorem execFifoPop_of_cons {s : State} {e : Frame} {rest : List Frame} (h : s.fifo = e :: rest) : execFifoPop s =
    .next (presented (BitVec.ofNat 64 rest.length) { s with fifo := rest, fr := e, frValid := true }) := by
  simp only [execFifoPop, h]
  rfl

/-- Settles O21, by the two forms of the FIFO. -/
theorem fifoPopTakesTheOldestFrame : Obligations.FifoPopTakesTheOldestFrame :=
  ⟨encodedAs_of_encode rfl rfl, fun _ => execFifoPop_of_nil, fun _ _ _ => execFifoPop_of_cons⟩

/-! NOP -/

theorem decode_of_fieldOp_zero {w : Word} (h : fieldOp w = 0) :
    decode w = needZero (fieldA w == 0 && fieldB w == 0 && fieldRsv w == 0) .nop := by
  simp only [decode, h]
  rfl

theorem needZero_cases (ok : Bool) (i : Instr) : needZero ok i = .ok i ∨ needZero ok i = .error .mustBeZero := by
  cases ok
  · exact .inr rfl
  · exact .inl rfl

/-- A word with the opcode of NOP that is not NOP's has a must-be-zero bit set (30_encoding.md R82): a legal word is
the word of its command. -/
theorem decode_of_fieldOp_zero_of_ne {w : Word} (h : fieldOp w = 0) (hw : w ≠ 0) :
    decode w = .error .mustBeZero := by
  obtain hok | herr := needZero_cases (fieldA w == 0 && fieldB w == 0 && fieldRsv w == 0) .nop
  · obtain ⟨-, hnop⟩ := wellFormed_and_encode_of_decode ((decode_of_fieldOp_zero h).trans hok)
    exact absurd hnop.symm hw
  · exact (decode_of_fieldOp_zero h).trans herr

/-- While FAULT = 1 a write outside CTRL is ignored (60_exceptions.md R266). -/
theorem busWrite_of_fault {size : AccessSize} {addr : Byte} (v : Word) {s : State} (hf : s.fault = true)
    (h : ¬ (addr = 0x00 ∧ size = .b4)) : busWrite size addr v s = .next s := by
  rw [busWrite, hf, decide_eq_false h]
  rfl

/-- Settles O8: NOP answers its own state, and its word is the only legal one with its opcode. -/
theorem nopDoesNothing : Obligations.NopDoesNothing :=
  ⟨fun _ => rfl, fun s => runCommand_of_decode s (decode_encode (i := .nop) rfl),
    fun _ => decode_of_fieldOp_zero_of_ne, fun _ hf => busWrite_of_fault 0 hf (by decide)⟩

end Sys2Proof.Machine
end

section
/-!
PROOFS. The value of a model fraction as a rational, and what each operation on fractions does to it (44_cpr.md R220 to
R222): the layer on which the CPR proofs stand.
-/

namespace Sys2Proof.Machine

open Sys2Proof.Claims

/-- The rational a fraction stands for (00_scope.md R11). -/
def fracVal (q : Frac) : ℚ := q.num / q.den

theorem fracVal_addInt (z : Int) {q : Frac} (h : 0 < q.den) : fracVal (fracAddInt z q) = z + fracVal q := by
  have hd : (q.den : ℚ) ≠ 0 := by positivity
  simp only [fracVal, fracAddInt]
  push_cast
  field_simp

theorem fracVal_divNat (q : Frac) (d : Nat) : fracVal (fracDivNat q d) = fracVal q / d := by
  simp only [fracVal, fracDivNat]
  push_cast
  rw [div_div]

theorem fracVal_mulInt (q : Frac) (z : Int) : fracVal (fracMulInt q z) = fracVal q * z := by
  simp only [fracVal, fracMulInt]
  push_cast
  ring

theorem fracVal_sub {p q : Frac} (hp : 0 < p.den) (hq : 0 < q.den) :
    fracVal (fracSub p q) = fracVal p - fracVal q := by
  have hp' : (p.den : ℚ) ≠ 0 := by positivity
  have hq' : (q.den : ℚ) ≠ 0 := by positivity
  simp only [fracVal, fracSub]
  push_cast
  field_simp

theorem fracLt_iff {p q : Frac} (hp : 0 < p.den) (hq : 0 < q.den) : fracLt p q = true ↔ fracVal p < fracVal q := by
  rw [fracLt, decide_eq_true_iff, fracVal, fracVal, div_lt_div_iff₀ (by positivity) (by positivity)]
  norm_cast

theorem fracFloor_eq (q : Frac) : fracFloor q = ⌊fracVal q⌋ :=
  (Rat.floor_intCast_div_natCast q.num q.den).symm

/-! Rounding -/

/-- The quantity `fracRound` compares with the denominator, as a rational. -/
theorem twiceRest_eq {q : Frac} (h : 0 < q.den) (n : Int) :
    ((2 * (q.num - n * q.den) : Int) : ℚ) = 2 * (fracVal q - n) * q.den := by
  have hd : (q.den : ℚ) ≠ 0 := by positivity
  simp only [fracVal]
  push_cast
  field_simp

theorem twiceRest_lt_iff {q : Frac} (h : 0 < q.den) (n : Int) :
    2 * (q.num - n * q.den) < q.den ↔ fracVal q - n < 1 / 2 := by
  have hd : (0 : ℚ) < q.den := by positivity
  rw [← Int.cast_lt (R := ℚ), twiceRest_eq h, Int.cast_natCast, mul_lt_iff_lt_one_left hd]
  constructor <;> intro <;> linarith

theorem lt_twiceRest_iff {q : Frac} (h : 0 < q.den) (n : Int) :
    q.den < 2 * (q.num - n * q.den) ↔ 1 / 2 < fracVal q - n := by
  have hd : (0 : ℚ) < q.den := by positivity
  rw [← Int.cast_lt (R := ℚ), twiceRest_eq h, Int.cast_natCast, lt_mul_iff_one_lt_left hd]
  constructor <;> intro <;> linarith

/-- The model's rounding, ties to even, is the claims' (44_cpr.md R221): the tests are the same. -/
theorem fracRound_even {q : Frac} (h : 0 < q.den) : fracRound .even q = roundQ (fracVal q) := by
  simp only [fracRound, roundQ, gt_iff_lt, ← fracFloor_eq, twiceRest_lt_iff h, lt_twiceRest_iff h]

theorem fracRound_cases (ties : RoundTies) {q : Frac} (h : 0 < q.den) :
    (fracRound ties q = fracFloor q ∧ fracVal q - fracFloor q ≤ 1 / 2) ∨
      (fracRound ties q = fracFloor q + 1 ∧ 1 / 2 ≤ fracVal q - fracFloor q) := by
  simp only [fracRound, gt_iff_lt, twiceRest_lt_iff h, lt_twiceRest_iff h]
  split
  case isTrue hlt => exact .inl ⟨rfl, hlt.le⟩
  case isFalse hlt =>
    split
    case isTrue hgt => exact .inr ⟨rfl, hgt.le⟩
    case isFalse hgt =>
      cases ties with
      | even =>
        dsimp only
        split
        · exact .inl ⟨rfl, not_lt.mp hgt⟩
        · exact .inr ⟨rfl, not_lt.mp hlt⟩
      | up => exact .inr ⟨rfl, not_lt.mp hlt⟩

/-- Under either tie rule, rounding moves a value by at most one half. -/
theorem abs_fracRound_sub_le (ties : RoundTies) {q : Frac} (h : 0 < q.den) :
    |(fracRound ties q : ℚ) - fracVal q| ≤ 1 / 2 := by
  have hfloor := Int.floor_le (fracVal q)
  have hceil := Int.lt_floor_add_one (fracVal q)
  rw [← fracFloor_eq] at hfloor hceil
  rw [abs_le]
  obtain ⟨hr, hrest⟩ | ⟨hr, hrest⟩ := fracRound_cases ties h
  · rw [hr]
    constructor <;> linarith
  · rw [hr]
    push_cast
    constructor <;> linarith

/-- The tie rule matters only at a tie. -/
theorem fracRound_eq_of_no_tie {q : Frac} (h : 2 * (q.num % q.den) ≠ q.den) (ties ties' : RoundTies) :
    fracRound ties q = fracRound ties' q := by
  have hrest : q.num - q.num / q.den * q.den = q.num % q.den := by
    rw [Int.emod_def, mul_comm]
  simp only [fracRound, fracFloor, hrest]
  split
  · rfl
  · rw [if_pos (by omega), if_pos (by omega)]

/-! Re-centering -/

@[simp] theorem recenter_den (v : Frac) : (recenter v).den = v.den := by
  unfold recenter
  split <;> rfl

theorem fracVal_recenter {v : Frac} (h : 0 < v.den) : fracVal (recenter v) = recenterQ (fracVal v) := by
  have hd : (0 : ℚ) < v.den := by positivity
  have htest : 2 * v.num ≥ v.den ↔ fracVal v ≥ 1 / 2 := by
    rw [fracVal, ge_iff_le, ge_iff_le, div_le_div_iff₀ two_pos hd, one_mul, mul_comm]
    norm_cast
  simp only [recenter, recenterQ, htest]
  split
  · rw [fracVal_addInt _ h]
    push_cast
    ring
  · rfl

/-- A fraction in [-1/2, 1/2) turns, the interval `recenter` maps to (44_cpr.md R222). -/
structure Centered (q : Frac) : Prop where
  den_pos : 0 < q.den
  neg_half_le : -(q.den : Int) ≤ 2 * q.num
  lt_half : 2 * q.num < q.den

theorem recenter_centered {v : Frac} (hd : 0 < v.den) (hlo : -(v.den : Int) ≤ 2 * v.num)
    (hhi : 2 * v.num < 3 * v.den) : Centered (recenter v) := by
  unfold recenter
  split
  · constructor <;> simp only [fracAddInt] <;> omega
  · constructor <;> omega

/-! The fields -/

theorem cprFrac_den_pos (k : CprField) : 0 < (cprFrac k).den :=
  Nat.two_pow_pos 17

theorem fracVal_cprFrac (k : CprField) : fracVal (cprFrac k) = (k.toNat : ℚ) / 2 ^ 17 := by
  simp only [fracVal, cprFrac]
  push_cast
  rfl

end Sys2Proof.Machine
end

section
/-!
PROOFS. The number of longitude zones (O57): the model's search of its table is the claims' greatest n, and the
thresholds fall as n grows (44_cpr.md R225, R226).
-/

namespace Sys2Proof.Machine

open Sys2Proof.Claims

/-! The folded latitude -/

theorem foldLatitude_den_pos {phi : Frac} (h : 0 < phi.den) : 0 < (foldLatitude phi).den := by
  simp only [foldLatitude]
  split
  · exact Nat.mul_pos two_pos h
  · exact h

theorem fracVal_foldLatitude {phi : Frac} (h : 0 < phi.den) : fracVal (foldLatitude phi) = foldQ (fracVal phi) := by
  have habs : fracVal ⟨phi.num.natAbs, phi.den⟩ = |fracVal phi| := by
    simp only [fracVal, abs_div, Nat.abs_cast]
    push_cast
    rfl
  have hquarter : fracVal ⟨1, 4⟩ = 1 / 4 := by simp [fracVal]
  have hhalf : fracVal ⟨1, 2⟩ = 1 / 2 := by simp [fracVal]
  simp only [foldLatitude, foldQ, fracLt_iff (p := ⟨1, 4⟩) (q := ⟨phi.num.natAbs, phi.den⟩) (by norm_num) h]
  rw [habs, hquarter]
  split
  · rw [fracVal_sub (by exact two_pos) (by exact h), habs, hhalf]
  · exact habs

/-! The thresholds -/

/-- The model's L_n, for n in 2..59. -/
def nlThreshold (n : Nat) : Frac := (nlTable.getD (59 - n) (0, ⟨0, 1⟩)).2

theorem nlTable_eq : nlTable = (List.range' 2 58).reverse.map fun n => (n, nlThreshold n) := by
  decide

theorem nlThreshold_den_pos : ∀ n ∈ List.range' 2 58, 0 < (nlThreshold n).den := by
  decide

theorem nlThreshold_lt : ∀ n ∈ List.range' 2 57, fracLt (nlThreshold (n + 1)) (nlThreshold n) = true := by
  decide

/-- The decimals of the claims are the fractions of the model's table, in the other order. -/
theorem thresholdsQ_eq_nlTable : thresholdsQ = nlTable.reverse.map fun row => fracVal row.2 := by
  norm_num [thresholdsQ, nlTable, nlRows0, nlRows1, nlRows2, nlRows3, fracVal]

theorem thresholdsQ_eq : thresholdsQ = (List.range' 2 58).map fun n => fracVal (nlThreshold n) := by
  rw [thresholdsQ_eq_nlTable, nlTable_eq, ← List.map_reverse, List.reverse_reverse, List.map_map, Function.comp_def]

theorem thresholdQ_eq {n : Nat} (hlo : 2 ≤ n) (hhi : n ≤ 59) : thresholdQ n = fracVal (nlThreshold n) := by
  rw [thresholdQ, thresholdsQ_eq, List.getD_eq_getElem _ _ (by simp; omega), List.getElem_map, List.getElem_range',
    one_mul, Nat.add_sub_cancel' hlo]

theorem fracLt_nlThreshold_iff {q : Frac} (hq : 0 < q.den) {n : Nat} (hlo : 2 ≤ n) (hhi : n ≤ 59) :
    fracLt q (nlThreshold n) = true ↔ fracVal q < thresholdQ n := by
  have hn : n ∈ List.range' 2 58 := by rw [List.mem_range'_1]; omega
  rw [fracLt_iff hq (nlThreshold_den_pos n hn), thresholdQ_eq hlo hhi]

theorem thresholdQ_succ_lt {n : Nat} (hlo : 2 ≤ n) (hhi : n ≤ 58) : thresholdQ (n + 1) < thresholdQ n := by
  have hn : n ∈ List.range' 2 57 := by rw [List.mem_range'_1]; omega
  have hden : n + 1 ∈ List.range' 2 58 := by rw [List.mem_range'_1]; omega
  rw [thresholdQ_eq (n := n + 1) (by omega) (by omega)]
  exact (fracLt_nlThreshold_iff (nlThreshold_den_pos _ hden) hlo (by omega)).mp (nlThreshold_lt n hn)

theorem thresholdQ_anti {m n : Nat} (hm : 2 ≤ m) (hmn : m ≤ n) (hn : n ≤ 59) : thresholdQ n ≤ thresholdQ m := by
  induction n, hmn using Nat.le_induction with
  | base => exact le_rfl
  | succ n hmn ih => exact (thresholdQ_succ_lt (hm.trans hmn) (by omega)).le.trans (ih (by omega))

/-! NL -/

/-- A search from k + 1 down to 2 that answers 1 when it fails finds the greatest number with the property. -/
theorem find?_reverse_range'_eq_findGreatest (P : Nat → Prop) [DecidablePred P] (h : P 1) (k : Nat) :
    ((List.range' 2 k).reverse.find? fun n => decide (P n)).getD 1 = Nat.findGreatest P (k + 1) := by
  induction k with
  | zero => rw [Nat.findGreatest_eq h]; rfl
  | succ k ih =>
    rw [List.range'_concat, List.reverse_append, List.reverse_singleton, List.singleton_append, List.find?_cons,
      Nat.findGreatest_succ, ← ih, one_mul, show 2 + k = k + 1 + 1 by omega]
    by_cases hk : P (k + 1 + 1)
    · rw [if_pos hk, decide_eq_true hk]; rfl
    · rw [if_neg hk, decide_eq_false hk]

theorem nl_eq_find (phi : Frac) : nl phi =
    ((List.range' 2 58).reverse.find? fun n => fracLt (foldLatitude phi) (nlThreshold n)).getD 1 := by
  rw [nl, nlTable_eq, List.find?_map, Function.comp_def]
  cases (List.range' 2 58).reverse.find? fun n => fracLt (foldLatitude phi) (nlThreshold n) <;> rfl

theorem nl_eq_find_thresholdQ {phi : Frac} (h : 0 < phi.den) : nl phi =
    ((List.range' 2 58).reverse.find? fun n => decide (foldQ (fracVal phi) < thresholdQ n)).getD 1 := by
  rw [nl_eq_find]
  refine congrArg (·.getD 1) (List.find?_congr fun n hn => ?_)
  rw [List.mem_reverse, List.mem_range'_1] at hn
  rw [Bool.eq_iff_iff, decide_eq_true_iff, fracLt_nlThreshold_iff (foldLatitude_den_pos h) hn.1 (by omega),
    fracVal_foldLatitude h]

/-- The model's NL is the claims' (44_cpr.md R225): from L_2 = 29/120 on no row of the table holds. -/
theorem nl_eq_nlQ {phi : Frac} (h : 0 < phi.den) : nl phi = nlQ (fracVal phi) := by
  rw [nl_eq_find_thresholdQ h, nlQ]
  split
  case isTrue hf =>
    rw [List.find?_eq_none.mpr]
    · rfl
    · intro n hn
      rw [List.mem_reverse, List.mem_range'_1] at hn
      have hn2 := thresholdQ_anti le_rfl hn.1 (by omega)
      simpa using hn2.trans hf
  case isFalse hf =>
    exact find?_reverse_range'_eq_findGreatest (fun n => foldQ (fracVal phi) < thresholdQ n) (not_le.mp hf) 58

theorem nlQ_cases (phi : ℚ) : (29 / 120 ≤ foldQ phi ∧ nlQ phi = 1) ∨
    (foldQ phi < 29 / 120 ∧ nlQ phi = Nat.findGreatest (fun n => foldQ phi < thresholdQ n) 59 ∧
      2 ≤ nlQ phi ∧ nlQ phi ≤ 59) := by
  unfold nlQ
  split
  case isTrue h => exact .inl ⟨h, rfl⟩
  case isFalse h =>
    have hlt : foldQ phi < thresholdQ 2 := not_le.mp h
    exact .inr ⟨hlt, rfl, Nat.le_findGreatest (by omega) hlt, Nat.findGreatest_le 59⟩

theorem nlQ_range (phi : ℚ) : 1 ≤ nlQ phi ∧ nlQ phi ≤ 59 := by
  obtain ⟨-, hnl⟩ | ⟨-, -, hnl⟩ := nlQ_cases phi <;> omega

theorem nlQ_eq_one_iff {phi : ℚ} : nlQ phi = 1 ↔ 29 / 120 ≤ foldQ phi := by
  obtain ⟨hf, hnl⟩ | ⟨hf, -, hnl, -⟩ := nlQ_cases phi
  · exact iff_of_true hnl hf
  · exact iff_of_false (by omega) (not_le.mpr hf)

theorem nlQ_eq_iff {phi : ℚ} {n : Nat} (hlo : 2 ≤ n) (hhi : n ≤ 59) :
    nlQ phi = n ↔ foldQ phi < thresholdQ n ∧ ∀ m, n < m → m ≤ 59 → thresholdQ m ≤ foldQ phi := by
  obtain ⟨hf, hnl⟩ | ⟨-, hnl, -⟩ := nlQ_cases phi
  · have hn := thresholdQ_anti le_rfl hlo hhi
    exact iff_of_false (by omega) fun ⟨hlt, _⟩ => absurd (hlt.trans_le hn) (not_lt.mpr hf)
  · rw [hnl, Nat.findGreatest_eq_iff]
    simp [hhi, show n ≠ 0 by omega]

/-- Settles O57: NL is the greatest n with f < L_n, and the L_n fall, so L_(n+1) alone bounds f from below. -/
theorem nlIsTheIntervalOfTheTable : Obligations.NlIsTheIntervalOfTheTable := by
  intro phi hden _ _
  rw [nl_eq_nlQ hden, fracVal]
  refine ⟨?_, nlQ_eq_one_iff, fun n hlo hhi => ?_, nlQ_range _⟩
  · rw [nlQ_eq_iff (by omega) le_rfl]
    exact and_iff_left fun m hm hle => by omega
  · rw [nlQ_eq_iff hlo (by omega), and_comm]
    refine and_congr_left fun _ => ⟨fun h => h _ (Nat.lt_succ_self n) (by omega), fun h m hm hle => ?_⟩
    exact (thresholdQ_anti (by omega) hm hle).trans h

end Sys2Proof.Machine
end

section
/-!
PROOFS. The angle of a pair of fields for n zones (O56). The latitude candidates of 44_cpr.md R223 are the longitude
formula of R229 with n = 60, so their ranges and values are one lemma each.
-/

namespace Sys2Proof.Machine

open Sys2Proof.Claims

/-- The angle the fields of the two halves give for n zones: a latitude for n = 60 (44_cpr.md R223), a longitude for
n = NL (R229). -/
def cprAngle (ties : RoundTies) (mr : Bool) (n : Nat) (e o : CprField) : Frac :=
  cprLongitude ties mr n (cprFrac e) (cprFrac o)

/-- The zone index of R223 (n = 60) and R229. -/
def zoneIndex (ties : RoundTies) (n : Nat) (e o : CprField) : Int :=
  fracRound ties (fracSub (fracMulInt (cprFrac e) (n - 1 : Nat)) (fracMulInt (cprFrac o) n))

/-- The zones of the selected half, `ni` in R229. -/
def selectedZones (mr : Bool) (n : Nat) : Nat := if mr then n - 1 else n

/-- The field of the selected half, `x_sel` in R229. -/
def selectedField (mr : Bool) (e o : CprField) : CprField := if mr then o else e

theorem cprLongitude_cprFrac (ties : RoundTies) (mr : Bool) (n : Nat) (e o : CprField) :
    cprLongitude ties mr n (cprFrac e) (cprFrac o) = cprAngle ties mr n e o := rfl

theorem phiEven_eq (ties : RoundTies) (e o : CprField) :
    phiEven ties (cprFrac e) (cprFrac o) = cprAngle ties false 60 e o := by
  simp [phiEven, cprAngle, cprLongitude, zPhi]

theorem phiOdd_eq (ties : RoundTies) (e o : CprField) :
    phiOdd ties (cprFrac e) (cprFrac o) = cprAngle ties true 60 e o := by
  simp [phiOdd, cprAngle, cprLongitude, zPhi]

theorem zPhi_eq (ties : RoundTies) (e o : CprField) : zPhi ties (cprFrac e) (cprFrac o) = zoneIndex ties 60 e o := by
  simp [zPhi, zoneIndex]

theorem cprAngle_one (ties : RoundTies) (mr : Bool) (e o : CprField) :
    cprAngle ties mr 1 e o = recenter (cprFrac (selectedField mr e o)) := by
  rw [cprAngle, cprLongitude, if_pos rfl]
  cases mr <;> rfl

theorem cprAngle_of_ne_one (ties : RoundTies) (mr : Bool) {n : Nat} (h : n ≠ 1) (e o : CprField) :
    cprAngle ties mr n e o = recenter (fracDivNat (fracAddInt
      (wrapZone (zoneIndex ties n e o) (selectedZones mr n)) (cprFrac (selectedField mr e o)))
        (selectedZones mr n)) := by
  cases mr <;> exact if_neg h

theorem selectedZones_pos (mr : Bool) {n : Nat} (hn : 2 ≤ n) : 0 < selectedZones mr n := by
  cases mr
  · exact Nat.zero_lt_of_lt hn
  · exact Nat.sub_pos_of_lt hn

theorem selectedZones_le (mr : Bool) (n : Nat) : selectedZones mr n ≤ n := by
  cases mr
  · exact le_rfl
  · exact Nat.sub_le n 1

theorem cprAngle_den (ties : RoundTies) (mr : Bool) {n : Nat} (hn : 1 ≤ n) (e o : CprField) :
    ∃ d, 0 < d ∧ d ≤ n ∧ (cprAngle ties mr n e o).den = 2 ^ 17 * d := by
  rcases Nat.eq_or_lt_of_le hn with rfl | hlt
  · exact ⟨1, one_pos, le_rfl, by rw [cprAngle_one, recenter_den]; rfl⟩
  · exact ⟨selectedZones mr n, selectedZones_pos mr hlt, selectedZones_le mr n, by
      rw [cprAngle_of_ne_one _ _ hlt.ne', recenter_den]; rfl⟩

/-! The zone index -/

theorem zoneDifference_den_pos (n : Nat) (e o : CprField) :
    0 < (fracSub (fracMulInt (cprFrac e) (n - 1 : Nat)) (fracMulInt (cprFrac o) n)).den :=
  Nat.mul_pos (cprFrac_den_pos e) (cprFrac_den_pos o)

theorem fracVal_zoneDifference (n : Nat) (e o : CprField) :
    fracVal (fracSub (fracMulInt (cprFrac e) (n - 1 : Nat)) (fracMulInt (cprFrac o) n)) =
      fracVal (cprFrac e) * (n - 1 : Nat) - fracVal (cprFrac o) * n := by
  rw [fracVal_sub (by exact cprFrac_den_pos e) (by exact cprFrac_den_pos o), fracVal_mulInt, fracVal_mulInt]
  push_cast
  rfl

/-- The zone index is within one half of its exact value, in the integers: all is multiplied by 2^18. -/
theorem zoneIndex_bounds (ties : RoundTies) (n : Nat) (e o : CprField) :
    2 * ((e.toNat * (n - 1) : Nat) - (o.toNat * n : Nat) : Int) - 2 ^ 17 ≤ 2 ^ 18 * zoneIndex ties n e o ∧
      2 ^ 18 * zoneIndex ties n e o ≤ 2 * ((e.toNat * (n - 1) : Nat) - (o.toNat * n : Nat) : Int) + 2 ^ 17 := by
  have h := abs_fracRound_sub_le ties (zoneDifference_den_pos n e o)
  rw [fracVal_zoneDifference, fracVal_cprFrac, fracVal_cprFrac, ← zoneIndex, abs_le] at h
  obtain ⟨hlo, hhi⟩ := h
  constructor <;> rw [← Int.cast_le (R := ℚ)] <;> push_cast <;> linarith

theorem zoneIndex_range (ties : RoundTies) {n : Nat} (hn : 1 ≤ n) (e o : CprField) :
    -n ≤ zoneIndex ties n e o ∧ zoneIndex ties n e o < n := by
  obtain ⟨hlo, hhi⟩ := zoneIndex_bounds ties n e o
  have heven : e.toNat * (n - 1) ≤ 2 ^ 17 * (n - 1) := Nat.mul_le_mul_right _ e.isLt.le
  have hodd : o.toNat * n ≤ 2 ^ 17 * n := Nat.mul_le_mul_right _ o.isLt.le
  omega

theorem le_odd_of_zoneIndex_min {ties : RoundTies} {n : Nat} (hn : 2 ≤ n) {e o : CprField}
    (hz : zoneIndex ties n e o = -n) : 2 ^ 17 - 2 ^ 15 ≤ o.toNat := by
  obtain ⟨hlo, -⟩ := zoneIndex_bounds ties n e o
  have hrest : (2 ^ 17 - o.toNat) * 2 ≤ (2 ^ 17 - o.toNat) * n := Nat.mul_le_mul_left _ hn
  rw [Nat.sub_mul _ _ n] at hrest
  omega

theorem odd_le_of_zoneIndex_max {ties : RoundTies} {n : Nat} (hn : 2 ≤ n) {e o : CprField}
    (hz : zoneIndex ties n e o = n - 1) : o.toNat ≤ 2 ^ 15 := by
  obtain ⟨-, hhi⟩ := zoneIndex_bounds ties n e o
  have heven : e.toNat * (n - 1) ≤ 2 ^ 17 * (n - 1) := Nat.mul_le_mul_right _ e.isLt.le
  have hodd : o.toNat * 2 ≤ o.toNat * n := Nat.mul_le_mul_left _ hn
  omega

theorem wrapZone_cases (z : Int) (k : Nat) : (z < 0 ∧ wrapZone z k = z + k) ∨ (0 ≤ z ∧ wrapZone z k = z) := by
  unfold wrapZone
  split
  case isTrue h => exact .inl ⟨h, rfl⟩
  case isFalse h => exact .inr ⟨not_lt.mp h, rfl⟩

theorem wrapZone_even_range (ties : RoundTies) {n : Nat} (hn : 1 ≤ n) (e o : CprField) :
    0 ≤ wrapZone (zoneIndex ties n e o) n ∧ wrapZone (zoneIndex ties n e o) n < n := by
  have hz := zoneIndex_range ties hn e o
  have hwrap := wrapZone_cases (zoneIndex ties n e o) n
  omega

/-- The odd half leaves [0, n - 1) zones by a quarter of a zone at most: only at the two ends of the zone index, and
there the field is near the zone's border (44_cpr.md R232). -/
theorem wrapZone_odd_range (ties : RoundTies) {n : Nat} (hn : 2 ≤ n) (e o : CprField) :
    -2 ^ 15 ≤ wrapZone (zoneIndex ties n e o) (n - 1) * 2 ^ 17 + o.toNat ∧
      wrapZone (zoneIndex ties n e o) (n - 1) * 2 ^ 17 + o.toNat ≤ 2 ^ 17 * (n - 1) + 2 ^ 15 := by
  have hz := zoneIndex_range ties (show 1 ≤ n by omega) e o
  have hwrap := wrapZone_cases (zoneIndex ties n e o) (n - 1)
  have ho := o.isLt
  rcases eq_or_ne (zoneIndex ties n e o) (-n) with hmin | hmin
  · have hborder := le_odd_of_zoneIndex_min hn hmin
    omega
  rcases eq_or_ne (zoneIndex ties n e o) (n - 1) with hmax | hmax
  · have hborder := odd_le_of_zoneIndex_max hn hmax
    omega
  · omega

/-! The range of the angle -/

theorem cprAngle_centered (ties : RoundTies) (mr : Bool) {n : Nat} (hn : 1 ≤ n) (e o : CprField) :
    Centered (cprAngle ties mr n e o) := by
  rcases Nat.eq_or_lt_of_le hn with rfl | hlt
  · rw [cprAngle_one]
    have hx := (selectedField mr e o).isLt
    apply recenter_centered <;> simp only [cprFrac] <;> omega
  · rw [cprAngle_of_ne_one _ _ hlt.ne']
    cases mr with
    | false =>
      obtain ⟨hlo, hhi⟩ := wrapZone_even_range ties hn e o
      have he := e.isLt
      apply recenter_centered <;> simp [fracDivNat, fracAddInt, cprFrac, selectedZones, selectedField] <;> omega
    | true =>
      obtain ⟨hlo, hhi⟩ := wrapZone_odd_range ties hlt e o
      apply recenter_centered <;> simp [fracDivNat, fracAddInt, cprFrac, selectedZones, selectedField] <;> omega

/-- Settles O56, as the angle for 60 zones. -/
theorem latitudeCandidatesAreInRange : Obligations.LatitudeCandidatesAreInRange := by
  intro ties y0 y1
  obtain ⟨hlo, hhi⟩ := zoneIndex_range ties (n := 60) (by omega) y0 y1
  rw [zPhi_eq, phiEven_eq, phiOdd_eq]
  refine ⟨hlo, Int.le_of_lt_add_one hhi, fun phi hphi => ?_⟩
  obtain ⟨hpos, hneg, hlt⟩ : Centered phi := by
    simp only [List.mem_cons, List.not_mem_nil, or_false] at hphi
    rcases hphi with rfl | rfl <;> exact cprAngle_centered ties _ (by omega) y0 y1
  exact ⟨hpos, hneg, hlt⟩

/-! The value of the angle -/

theorem selectedZones_cast (mr : Bool) {n : Nat} (hn : 1 ≤ n) :
    (selectedZones mr n : Int) = if mr then (n : Int) - 1 else n := by
  cases mr
  · rfl
  · exact Nat.cast_sub hn

theorem zoneIndex_even {n : Nat} (hn : 1 ≤ n) (e o : CprField) :
    zoneIndex .even n e o = roundQ (fracVal (cprFrac e) * (n - 1) - fracVal (cprFrac o) * n) := by
  rw [zoneIndex, fracRound_even (zoneDifference_den_pos n e o), fracVal_zoneDifference, Nat.cast_pred hn]

theorem fracVal_cprAngle (mr : Bool) {n : Nat} (hn : 1 ≤ n) (e o : CprField) :
    fracVal (cprAngle .even mr n e o) = longitudeQ mr n (fracVal (cprFrac e)) (fracVal (cprFrac o)) := by
  rcases Nat.eq_or_lt_of_le hn with rfl | hlt
  · rw [cprAngle_one, fracVal_recenter (cprFrac_den_pos _), longitudeQ, if_pos rfl]
    cases mr <;> rfl
  · have hden := Nat.mul_pos (cprFrac_den_pos (selectedField mr e o)) (selectedZones_pos mr hlt)
    rw [cprAngle_of_ne_one _ _ hlt.ne', fracVal_recenter (by exact hden), fracVal_divNat,
      fracVal_addInt _ (cprFrac_den_pos _), longitudeQ, if_neg hlt.ne', ← zoneIndex_even hn,
      ← selectedZones_cast mr hn]
    cases mr <;> rfl

theorem latitudesQ_eq (e o : ℚ) : latitudesQ e o = (longitudeQ false 60 e o, longitudeQ true 60 e o) := by
  norm_num [latitudesQ, longitudeQ]

end Sys2Proof.Machine
end

section
/-!
PROOFS. The T32 conversions and CPR_DECODE (O22, O58, O59).
-/

namespace Sys2Proof.Machine

open Sys2Proof.Claims

/-! T32 (44_cpr.md R232) -/

/-- At a tie 2^16 would divide d times an odd number, hence d. -/
theorem t32_no_tie {q : Frac} {d : Nat} (hpos : 0 < d) (hle : d ≤ 60) (hd : q.den = 2 ^ 17 * d) :
    2 * (q.num * 2 ^ 32 % q.den) ≠ q.den := by
  intro htie
  have hdiv := Int.emod_add_mul_ediv (q.num * 2 ^ 32) q.den
  set k := q.num * 2 ^ 32 / q.den
  have hodd : 2 ^ 16 * q.num = (2 * k + 1) * d := by
    rw [hd] at htie hdiv
    push_cast at htie hdiv
    linarith
  have hcop : IsCoprime ((2 : Int) ^ 16) (2 * k + 1) := IsCoprime.pow_left ⟨-k, 1, by ring⟩
  have hdvd : (2 : Int) ^ 16 ∣ d := hcop.dvd_of_dvd_mul_left ⟨_, hodd.symm⟩
  have hlarge := Int.le_of_dvd (by omega) hdvd
  omega

theorem Centered.neg_half_le_fracVal {q : Frac} (h : Centered q) : -(1 / 2) ≤ fracVal q := by
  have hnum := Int.cast_le (R := ℚ) |>.mpr h.neg_half_le
  rw [fracVal, le_div_iff₀ (Nat.cast_pos.mpr h.den_pos)]
  push_cast at hnum
  linarith

/-- Below 1/2 there is a gap, since the denominator is bounded. -/
theorem Centered.fracVal_le {q : Frac} (h : Centered q) (hden : q.den ≤ 2 ^ 23) :
    fracVal q ≤ 1 / 2 - 1 / 2 ^ 24 := by
  have hnum := Int.cast_le (R := ℚ) |>.mpr (Int.add_one_le_iff.mpr h.lt_half)
  have hden' : (q.den : ℚ) ≤ 2 ^ 23 := by exact_mod_cast hden
  rw [fracVal, div_le_iff₀ (Nat.cast_pos.mpr h.den_pos)]
  push_cast at hnum
  linarith

theorem Centered.t32_range (ties : RoundTies) {q : Frac} (h : Centered q) (hden : q.den ≤ 2 ^ 23) :
    -2 ^ 31 ≤ fracRound ties (fracMulInt q (2 ^ 32)) ∧ fracRound ties (fracMulInt q (2 ^ 32)) ≤ 2 ^ 31 - 1 := by
  have hround := abs_fracRound_sub_le ties (q := fracMulInt q (2 ^ 32)) h.den_pos
  have hlo := h.neg_half_le_fracVal
  have hhi := h.fracVal_le hden
  rw [fracVal_mulInt, abs_le] at hround
  obtain ⟨hbelow, habove⟩ := hround
  push_cast at hbelow habove
  constructor
  · rw [← Int.sub_one_lt_iff, ← Int.cast_lt (R := ℚ)]
    push_cast
    linarith
  · rw [← Int.lt_add_one_iff, ← Int.cast_lt (R := ℚ)]
    push_cast
    linarith

theorem fracRound_even_t32 {q : Frac} (h : 0 < q.den) :
    fracRound .even (fracMulInt q (2 ^ 32)) = roundQ (fracVal q * 2 ^ 32) := by
  rw [fracRound_even (by exact h), fracVal_mulInt]
  push_cast
  rfl

/-- Settles O59: the denominators are 2^17 times at most 60. -/
theorem t32ConversionsNeverMeetATie : Obligations.T32ConversionsNeverMeetATie := by
  intro ties mr x0 y0 x1 y1 n hn1 hn q hq
  obtain ⟨d, hpos, hle, hden⟩ : ∃ d, 0 < d ∧ d ≤ 60 ∧ q.den = 2 ^ 17 * d := by
    rw [phiEven_eq, phiOdd_eq, cprLongitude_cprFrac] at hq
    simp only [List.mem_cons, List.not_mem_nil, or_false] at hq
    rcases hq with rfl | rfl | rfl
    · exact cprAngle_den ties false (by omega) y0 y1
    · exact cprAngle_den ties true (by omega) y0 y1
    · obtain ⟨d, hpos, hle, hden⟩ := cprAngle_den ties mr hn1 x0 x1
      exact ⟨d, hpos, by omega, hden⟩
  have hrest := t32_no_tie hpos hle hden
  exact ⟨hrest, fracRound_eq_of_no_tie (q := fracMulInt q (2 ^ 32)) hrest _ _⟩

/-! The decoded pair -/

/-- The decoder (44_cpr.md R230) with the parity as an argument of its angles, the other half's parity being `!mr`. -/
theorem cprSolve_eq (ties : RoundTies) (mr : Bool) (x0 y0 x1 y1 : CprField) : cprSolve ties mr x0 y0 x1 y1 =
    let phi := cprAngle ties mr 60 y0 y1
    let lat := fracRound ties (fracMulInt phi (2 ^ 32))
    let lon := fracRound ties (fracMulInt (cprAngle ties mr (nl phi) x0 x1) (2 ^ 32))
    if nl phi ≠ nl (cprAngle ties (!mr) 60 y0 y1) then none
    else if lat < -2 ^ 30 ∨ lat > 2 ^ 30 then none else some (lat, lon) := by
  cases mr <;>
    simp only [cprSolve, phiEven_eq, phiOdd_eq, cprLongitude_cprFrac, Bool.not_false, Bool.not_true, if_true,
      Bool.false_eq_true, if_false]

theorem nl_cprAngle_range (ties : RoundTies) (mr : Bool) {n : Nat} (hn : 1 ≤ n) (e o : CprField) :
    1 ≤ nl (cprAngle ties mr n e o) ∧ nl (cprAngle ties mr n e o) ≤ 59 := by
  rw [nl_eq_nlQ (cprAngle_centered ties mr hn e o).den_pos]
  exact nlQ_range _

/-- A decoded latitude is within its bounds, and the longitude is the angle for a number of zones in 1..59. -/
theorem cprSolve_eq_some {ties : RoundTies} {mr : Bool} {x0 y0 x1 y1 : CprField} {lat lon : Int}
    (h : cprSolve ties mr x0 y0 x1 y1 = some (lat, lon)) : -2 ^ 30 ≤ lat ∧ lat ≤ 2 ^ 30 ∧
      ∃ n, 1 ≤ n ∧ n ≤ 59 ∧ lon = fracRound ties (fracMulInt (cprAngle ties mr n x0 x1) (2 ^ 32)) := by
  obtain ⟨hn1, hn⟩ := nl_cprAngle_range ties mr (n := 60) (by omega) y0 y1
  simp only [cprSolve_eq] at h
  split at h
  · cases h
  · split at h
    · cases h
    · cases h
      exact ⟨by omega, by omega, _, hn1, hn, rfl⟩

theorem packPosition_toNat (lat lon : Int) :
    (packPosition lat lon).toNat = (lat % 2 ^ 32).toNat * 2 ^ 32 + (lon % 2 ^ 32).toNat := by
  rw [packPosition, BitVec.toNat_append, ← Nat.shiftLeft_add_eq_or_of_lt (BitVec.isLt _), Nat.shiftLeft_eq,
    BitVec.toNat_ofInt, BitVec.toNat_ofInt]
  rfl

/-- Settles O58, by the range of an angle whose denominator is at most 2^17 * 59. -/
theorem decodedPositionsFitTheirFields : Obligations.DecodedPositionsFitTheirFields := by
  intro ties mr x0 y0 x1 y1 lat lon h
  obtain ⟨hmin, hmax, n, hn1, hn, rfl⟩ := cprSolve_eq_some h
  obtain ⟨d, -, hd, hden⟩ := cprAngle_den ties mr hn1 x0 x1
  obtain ⟨hlo, hhi⟩ := (cprAngle_centered ties mr hn1 x0 x1).t32_range ties (by omega)
  exact ⟨hmin, hmax, hlo, hhi, packPosition_toNat _ _⟩

/-- The model's decoder is the claims' computation in exact rationals (44_cpr.md R230). -/
theorem cprSolve_even_eq_cprQ (mr : Bool) (x0 y0 x1 y1 : CprField) :
    cprSolve .even mr x0 y0 x1 y1 = cprQ mr x0 y0 x1 y1 := by
  have hlat (mr : Bool) := fracVal_cprAngle mr (show 1 ≤ 60 by omega) y0 y1
  have hlon (phi : ℚ) := fracVal_cprAngle mr (nlQ_range phi).1 x0 x1
  have hpos (mr : Bool) := (cprAngle_centered .even mr (show 1 ≤ 60 by omega) y0 y1).den_pos
  have hposLon (phi : ℚ) := (cprAngle_centered .even mr (nlQ_range phi).1 x0 x1).den_pos
  simp only [cprSolve_eq, nl_eq_nlQ (hpos _), fracRound_even_t32 (hpos _), fracRound_even_t32 (hposLon _), hlat, hlon,
    fracVal_cprFrac]
  cases mr <;>
    simp only [cprQ, latitudesQ_eq, Bool.not_false, Bool.not_true, if_true, Bool.false_eq_true, if_false]

/-! The command -/

theorem execCprDecode_eq {a : Byte} {s : State} {o : Option (Int × Int)}
    (h : cprQ (a.getLsbD 0) s.cprX0 s.cprY0 s.cprX1 s.cprY1 = o) : execCprDecode a s =
      .next (o.elim (absented s) fun p => presented (BitVec.ofInt 32 p.1 ++ BitVec.ofInt 32 p.2) s) := by
  rw [← cprSolve_even_eq_cprQ] at h
  unfold execCprDecode
  rw [Config.roundTies, h]
  cases o <;> rfl

/-- Settles O22: the command presents the claims' pair, or absent. -/
theorem cprDecodeIsTheExactRationalComputation : Obligations.CprDecodeIsTheExactRationalComputation :=
  ⟨encodedAs_of_encode rfl rfl, encodedAs_of_encode rfl rfl, fun _ _ =>
    ⟨execCprDecode_eq, fun _ _ => execCprDecode_eq⟩⟩

end Sys2Proof.Machine
end

section
/-!
PROOFS. Every step answers a next state (O7), and what a command owes to the stream units (O24).
-/

namespace Sys2Proof.Machine

open Sys2Proof.Claims

/-! Every step answers a next state (O7) -/

/-- The result is a next state: the model's own fault and refusal are not used (log entry 1). -/
def Answers (r : Result) : Prop := ∃ t : State, r = .next t

theorem answers_next (t : State) : Answers (.next t) := ⟨t, rfl⟩

theorem answers_ite {c : Prop} [Decidable c] {p q : Result} (hp : Answers p) (hq : Answers q) :
    Answers (if c then p else q) := by
  split
  · exact hp
  · exact hq

theorem needFrame_answers (s k : State) : Answers (needFrame s k) :=
  answers_ite (answers_next _) (answers_next _)

theorem execFifoPop_answers (s : State) : Answers (execFifoPop s) := by
  cases hq : s.fifo with
  | nil => exact ⟨_, execFifoPop_of_nil hq⟩
  | cons e rest => exact ⟨_, execFifoPop_of_cons hq⟩

/-- No arm of `exec` refuses its command. -/
theorem exec_answers (i : Instr) (s : State) : Answers (exec i s) := by
  cases i with
  | nop | bsLength | crcTable | crcCompute => exact answers_next _
  | bvTestbit | bsByteat => exact answers_ite (answers_next _) (answers_next _)
  | bvExtract | bsRange => exact answers_ite (answers_next _) (answers_ite (answers_next _) (answers_next _))
  | rfOf =>
    exact answers_ite (answers_next _)
      (answers_ite (answers_next _) (answers_ite (answers_next _) (answers_next _)))
  | rfDf | rfIcao | rfMe | rfTc | rfClass | rfCprload => exact needFrame_answers s _
  | cprDecode a => exact ⟨_, execCprDecode_eq rfl⟩
  | fifoPop => exact execFifoPop_answers s

theorem runCommand_answers (w : Word) (s : State) : Answers (runCommand w s) := by
  unfold runCommand
  split
  · exact exec_answers _ _
  · exact answers_next _

theorem writeReg_answers (r : Reg) (addr : Byte) (v : Word) (s : State) : Answers (writeReg r addr v s) := by
  cases r with
  | cmd => exact runCommand_answers v s
  | _ => exact answers_next _

theorem busRead_answers (size : AccessSize) (addr : Byte) (s : State) : Answers (busRead size addr s) := by
  unfold busRead
  split
  · exact answers_next _
  · exact answers_ite (answers_next _) (answers_next _)

theorem busWrite_answers (size : AccessSize) (addr : Byte) (v : Word) (s : State) :
    Answers (busWrite size addr v s) := by
  refine answers_ite (answers_next _) ?_
  split
  · exact writeReg_answers _ addr v s
  · exact answers_next _

theorem hostAccess_answers (a : Access) (s : State) : Answers (hostAccess a s) := by
  cases a with
  | read size addr => exact busRead_answers size addr s
  | write size addr v => exact busWrite_answers size addr v s

/-- Settles O7, by the agent whose turn it is: only the host's access could answer anything else. -/
theorem everyStepAnswersANextState : Obligations.EveryStepAnswersANextState := by
  intro s
  cases ha : nextAgent s with
  | host =>
    rw [step_host ha]
    exact hostAccess_answers _ _
  | source => exact ⟨_, step_source ha⟩
  | demodulator => exact ⟨_, step_demodulator ha⟩

/-! The commands and the stream units (O24) -/

/-- A check that does not depend on the stream units carries the claim over to its two branches. -/
theorem ite_eq_mapNext_ite {c : Prop} [Decidable c] {f : State → State} {p p' q q' : Result} (hp : p' = mapNext f p)
    (hq : q' = mapNext f q) : (if c then p' else q') = mapNext f (if c then p else q) := by
  rw [hp, hq]
  exact (apply_ite (mapNext f) c p q).symm

theorem needFrame_withStream {s u k k' : State} (h : k' = withStream k u) :
    needFrame (withStream s u) k' = mapNext (fun t => withStream t u) (needFrame s k) :=
  ite_eq_mapNext_ite (congrArg Host.Outcome.next h) rfl

theorem execRfClass_withStream (s u : State) :
    execRfClass (withStream s u) = mapNext (fun t => withStream t u) (execRfClass s) := by
  refine needFrame_withStream ?_
  rw [apply_ite (fun t => withStream t u)]
  rfl

theorem execRfCprload_withStream (s u : State) :
    execRfCprload (withStream s u) = mapNext (fun t => withStream t u) (execRfCprload s) := by
  refine needFrame_withStream ?_
  rw [apply_ite (fun t => withStream t u), apply_ite (fun t => withStream t u)]
  rfl

theorem execCprDecode_withStream (a : Byte) (s u : State) :
    execCprDecode a (withStream s u) = mapNext (fun t => withStream t u) (execCprDecode a s) := by
  generalize h : cprQ (a.getLsbD 0) s.cprX0 s.cprY0 s.cprX1 s.cprY1 = o
  rw [execCprDecode_eq h, execCprDecode_eq (s := withStream s u) h]
  cases o <;> rfl

/-- Settles O24, command by command: the checks and the results read only registers that the stream units do not hold,
and write only such registers. -/
theorem commandsDoNotDependOnTheStream : Obligations.CommandsDoNotDependOnTheStream := by
  intro i s u hpop
  cases i with
  | nop | bsLength | crcTable | crcCompute => rfl
  | bvTestbit | bsByteat => exact ite_eq_mapNext_ite rfl rfl
  | bvExtract | bsRange => exact ite_eq_mapNext_ite rfl (ite_eq_mapNext_ite rfl rfl)
  | rfOf => exact ite_eq_mapNext_ite rfl (ite_eq_mapNext_ite rfl (ite_eq_mapNext_ite rfl rfl))
  | rfDf | rfIcao | rfMe | rfTc => exact needFrame_withStream rfl
  | rfClass => exact execRfClass_withStream s u
  | rfCprload => exact execRfCprload_withStream s u
  | cprDecode a => exact execCprDecode_withStream a s u
  | fifoPop => exact absurd rfl hpop

end Sys2Proof.Machine
end

section
/-!
PROOFS. What a step that records a fault has done (O26, O28), what a faulted block still does (O27, O36), and what the
host and the stream agents share (O46).
-/

namespace Sys2Proof.Machine

open Sys2Proof.Claims

/-! Fault entry (O26, O28) -/

/-- A command keeps FAULT, or its only effect is to record a fault. -/
theorem Effect.fault_cases {i : Instr} {s t : State} (h : Effect s i t) :
    t.fault = s.fault ∨ ∃ c, c ≠ .none ∧ t = raiseCmd c s := by
  cases h with
  | fault _ c hc => exact .inr ⟨c, hc, rfl⟩
  | _ => exact .inl rfl

/-- A write of CMD keeps FAULT, or stores its word and records a fault with it (10_state.md R26). -/
theorem runCommand_fault_cases {w : Word} {s t : State} (h : runCommand w s = .next t) :
    t.fault = s.fault ∨ ∃ c, c ≠ .none ∧ t = raised c w { s with cmd := w } := by
  obtain ⟨i, -, he⟩ | ⟨-, rfl⟩ := runCommand_cases h
  · exact (exec_effect he).fault_cases
  · exact .inr ⟨.illegalCmd, by decide, rfl⟩

/-- A host's write that records a fault does nothing else, but for a word it has stored in CMD, which is then the fault
information. -/
theorem busWrite_fault {size : AccessSize} {addr : Byte} {v : Word} {s t : State}
    (h : busWrite size addr v s = .next t) (hs : s.fault = false) (ht : t.fault = true) :
    ∃ c info w, c ≠ .none ∧ (w = s.cmd ∨ w = info) ∧ t = raised c info { s with cmd := w } := by
  have hne : t.fault ≠ s.fault := by simp [hs, ht]
  obtain ⟨hf, -, -⟩ | ⟨-, ⟨r, -, hw⟩ | ⟨-, rfl⟩⟩ := busWrite_cases h
  · exact absurd (hf.symm.trans hs) (by decide)
  · obtain ⟨-, rfl⟩ | ⟨-, hrun⟩ | ⟨-, hsame⟩ | ⟨-, rfl⟩ | ⟨-, rfl⟩ := writeReg_cases hw
    · obtain ⟨-, hc⟩ | ⟨-, hc⟩ := writeCtrl_cases v s
      · rw [hc] at ht
        cases ht
      · exact absurd (congrArg State.fault hc) hne
    · obtain hkept | ⟨c, hc, rfl⟩ := runCommand_fault_cases hrun
      · exact absurd hkept hne
      · exact ⟨c, v, v, hc, .inr rfl, rfl⟩
    · exact absurd (by rw [hsame]) hne
    · exact ⟨_, _, s.cmd, by decide, .inl rfl, rfl⟩
    · exact ⟨_, _, s.cmd, by decide, .inl rfl, rfl⟩
  · exact ⟨_, _, s.cmd, by decide, .inl rfl, rfl⟩

/-- A host's read that records a fault returns 0 and does nothing else (20_memory.md R62). -/
theorem busRead_fault {size : AccessSize} {addr : Byte} {s t : State} (h : busRead size addr s = .next t)
    (hs : s.fault = false) (ht : t.fault = true) :
    ∃ info, t = { raised .badReg info s with readData := some 0 } := by
  have hne : t.fault ≠ s.fault := by simp [hs, ht]
  obtain ⟨r, -, rfl⟩ | ⟨-, -, rfl⟩ | ⟨-, -, rfl⟩ := busRead_cases h
  · exact absurd rfl hne
  · exact absurd rfl hne
  · exact ⟨_, rfl⟩

/-- A turn of the Demodulator keeps FAULT, or has met a timestamp that does not fit (42_demod.md R168). -/
theorem demodTurn_fault_cases (s : State) : (demodTurn s).fault = s.fault ∨
    (s.pos.toNat * 100 > 2 ^ 63 - 1 ∧ demodTurn s = raised .tsOverflow 0 (idle s)) := by
  obtain ⟨-, h⟩ | ⟨-, -, -, h⟩ | ⟨-, -, -, h⟩ := demodTurn_cases s
  · exact .inl (by rw [h]; rfl)
  · exact .inl (by rw [h]; rfl)
  · obtain ⟨hp, he⟩ | ⟨-, -, he⟩ | ⟨-, -, he⟩ := evalWindow_cases (takeTurn s)
    · exact .inr ⟨hp, h.trans he⟩
    · exact .inl (by rw [h, he, setPos_fault, pushFrame_fault, takeTurn_fault])
    · exact .inl (by rw [h, he, setPos_fault, takeTurn_fault])

/-- Everything a step that records a fault can do (60_exceptions.md R261). -/
inductive FaultEntry (s : State) : State → Prop where
  | read (hr : readNext s) (info : Word) :
      FaultEntry s { raised .badReg info (accessed s) with readData := some 0 }
  | write (ha : nextAgent s = .host) (hr : ¬ readNext s) (c : FaultCause) (hc : c ≠ .none) (info w : Word)
      (hw : w = s.cmd ∨ w = info) : FaultEntry s (raised c info { accessed s with cmd := w })
  | overflow (ha : nextAgent s = .demodulator) (hp : s.pos.toNat * 100 > 2 ^ 63 - 1) :
      FaultEntry s (raised .tsOverflow 0 (idle s))

/-- Inversion of a step that records a fault. -/
theorem step_faultEntry {s t : State} (h : step s = .next t) (hs : s.fault = false) (ht : t.fault = true) :
    FaultEntry s t := by
  obtain ⟨size, addr, ha, hacc, hb⟩ | ⟨size, addr, v, ha, hacc, hb⟩ | ⟨-, rfl⟩ | ⟨ha, rfl⟩ := step_cases h
  · obtain ⟨info, rfl⟩ := busRead_fault hb hs ht
    exact .read ⟨ha, size, addr, hacc⟩ info
  · have hr : ¬ readNext s := by
      rintro ⟨-, size', addr', hread⟩
      cases hacc.symm.trans hread
    obtain ⟨c, info, w, hc, hw, rfl⟩ := busWrite_fault hb hs ht
    exact .write ha hr c hc info w hw
  · rw [sourceTurn_fault, hs] at ht
    cases ht
  · obtain hkept | ⟨hp, he⟩ := demodTurn_fault_cases s
    · rw [hkept, hs] at ht
      cases ht
    · rw [he]
      exact .overflow ha hp

/-- Settles O26, by the form of the fault entry. -/
theorem faultEntryIsPrecise : Obligations.FaultEntryIsPrecise := by
  refine ⟨fun _ _ _ => rfl, fun s t h hs ht => ?_⟩
  cases step_faultEntry h hs ht with
  | read hr info => exact ⟨rfl, nofun, .inl rfl, fun _ => rfl, fun hn => absurd hr hn⟩
  | write ha hr c hc info w hw => exact ⟨rfl, hc, hw, fun hr' => absurd hr' hr, fun _ => rfl⟩
  | overflow ha hp =>
    refine ⟨rfl, nofun, .inl rfl, fun hr => ?_, fun _ => rfl⟩
    exact absurd (ha.symm.trans hr.1) (by decide)

/-- Settles O28: of the fault entries, only the overflow is not the host's. -/
theorem streamAgentsRaiseOnlyTimestampOverflow : Obligations.StreamAgentsRaiseOnlyTimestampOverflow := by
  intro s t h hs hhost ht
  cases step_faultEntry h hs ht with
  | read hr => exact absurd hr.1 hhost
  | write ha => exact absurd ha hhost
  | overflow ha hp => exact ⟨ha, rfl, rfl, hp⟩

/-! The faulted block (O27, O36) -/

/-- Everything a step from a faulted state can do, soft resets aside (60_exceptions.md R263, R266). -/
inductive FaultedMove (s : State) : State → Prop where
  | idle : FaultedMove s (idle s)
  | read (v : Word) : FaultedMove s { accessed s with readData := some v }
  | ignored : FaultedMove s (accessed s)
  | enable (v : Word) (ha : nextAgent s = .host) (hacc : nextAccess s = .write .b4 0x00 v) :
      FaultedMove s { accessed s with demodEn := v.getLsbD 0 }

/-- A host's step from a faulted state: the effects that need FAULT = 0 are shut out. -/
theorem HostEffect.faultedMove {s t : State} (h : HostEffect s t) (ha : nextAgent s = .host) (hf : s.fault = true)
    (hr : softResetNext s = false) : FaultedMove s t := by
  have hnot : s.fault ≠ false := by simp [hf]
  cases h with
  | read v => exact .read v
  | ignored => exact .ignored
  | enable v hacc => exact .enable v ha hacc
  | reset hr' => exact absurd (hr.symm.trans hr') (by decide)
  | badRead _ hf' | badWrite _ hf' | illegal _ _ hf' | command _ _ _ _ hf' | operand _ hf' | badLength _ hf' =>
    exact absurd hf' hnot

/-- Inversion of a step from a faulted state: the Source and the Demodulator have no step (60_exceptions.md R263). -/
theorem step_faultedMove {s t : State} (h : step s = .next t) (hf : s.fault = true) (hr : softResetNext s = false) :
    FaultedMove s t := by
  cases ha : nextAgent s with
  | host => exact (host_effect ha h).faultedMove ha hf hr
  | source =>
    rw [step_source ha, sourceTurn_of_disabled (sourceEnabled_eq_false (.inl hf))] at h
    cases h
    exact .idle
  | demodulator =>
    rw [step_demodulator ha, demodTurn_of_disabled (by simp [demodEnabled, hf])] at h
    cases h
    exact .idle

/-- Settles O27, by the moves of a faulted state. -/
theorem faultedBlockKeepsItsStateUntilReset : Obligations.FaultedBlockKeepsItsStateUntilReset := by
  refine ⟨fun s hf => if_pos hf, fun s hf => if_neg (Bool.eq_false_iff.mp hf), fun s t h _ hr => ?_,
    fun s t h hf hr => ?_⟩
  · rw [step_softReset hr h]
    rfl
  · cases step_faultedMove h hf hr with
    | enable v ha hacc => exact ⟨rfl, rfl, .inr ⟨ha, v, hacc, rfl⟩⟩
    | idle | read | ignored => exact ⟨rfl, rfl, .inl rfl⟩

/-- A 4-byte write at 0x00 is a write of CTRL, whether a fault is recorded or not (60_exceptions.md R266). -/
theorem busWrite_ctrl (v : Word) (s : State) : busWrite .b4 0x00 v s = .next (writeCtrl v s) :=
  busWrite_offset .ctrl v (.inr rfl)

/-- While FAULT = 1 an illegal read returns 0 and records nothing (60_exceptions.md R266). -/
theorem busRead_of_fault {size : AccessSize} {addr : Byte} {s : State} (hf : s.fault = true)
    (h : accessReg size addr = none) : busRead size addr s = .next { s with readData := some 0 } := by
  rw [busRead, h]
  exact if_pos hf

/-- Settles O36, by the kinds of access. -/
theorem faultedAccessesActAsTheRuleSays : Obligations.FaultedAccessesActAsTheRuleSays := by
  intro size addr v s hf
  refine ⟨?_, fun hill => busRead_of_fault hf (accessReg_eq_none.mpr hill),
    fun h => busWrite_of_fault v hf (not_and_or.mpr h), ?_, ?_⟩
  · rintro rfl hm
    obtain ⟨r, rfl⟩ := mapped_iff.mp hm
    exact ⟨r, regAt_eq_some.mpr rfl, busRead_offset r s⟩
  · rintro rfl rfl hv
    have hw : writeCtrl v s = softReset s := if_pos hv
    exact ⟨softReset s, (busWrite_ctrl v s).trans (congrArg _ hw), (softReset_softReset s).symm, rfl⟩
  · rintro rfl rfl hv
    have hw : writeCtrl v s = { s with demodEn := v.getLsbD 0 } := if_neg (Bool.eq_false_iff.mp hv)
    exact (busWrite_ctrl v s).trans (congrArg _ hw)

/-! What the host and the stream agents share (O46) -/

/-- What a step of the Source or the Demodulator may change (60_exceptions.md R273). -/
def SameButStream (s t : State) : Prop :=
  t = { withStream s t with
    demodEn := s.demodEn
    fault := t.fault
    faultCause := t.faultCause
    faultInfo := t.faultInfo
    moves := s.moves + 1
    turns := s.turns.tail
    stream := t.stream }

theorem sourceTurn_sameButStream (s : State) : SameButStream s (sourceTurn s) := by
  obtain ⟨-, h⟩ | ⟨-, -, -, h⟩ | ⟨b, -, -, -, -, h⟩ := sourceTurn_cases s
  · rw [h]
    rfl
  · rw [h]
    rfl
  · rw [h, sourceByte_same]
    rfl

theorem demodTurn_sameButStream (s : State) : SameButStream s (demodTurn s) := by
  obtain ⟨-, h⟩ | ⟨-, -, -, h⟩ | ⟨-, -, -, h⟩ := demodTurn_cases s
  · rw [h]
    rfl
  · rw [h]
    rfl
  · rw [h]
    obtain ⟨-, he⟩ | ⟨-, -, he⟩ | ⟨-, -, he⟩ := evalWindow_cases (takeTurn s) <;> (rw [he]; rfl)

/-- Stream units that are as they were differ at most in the two parts the host shares, the enable and the FIFO. -/
theorem StreamKept.withStream_eq {s t : State} (h : StreamKept s t) :
    withStream s t = { s with demodEn := t.demodEn, fifo := t.fifo } := by
  simp only [withStream, h.done, h.eos, h.pos, h.lowByte, h.nSamples, h.hist, h.half, h.power]

theorem Effect.stream {i : Instr} {s t : State} (h : Effect s i t) : t.stream = s.stream := by
  cases h <;> rfl

/-- The host never touches the undelivered stream, not even by a soft reset. -/
theorem HostEffect.stream {s t : State} (h : HostEffect s t) : t.stream = s.stream := by
  cases h with
  | command w i t _ _ _ he => exact he.stream
  | operand t _ hs => rw [hs]; rfl
  | _ => rfl

/-- Settles O46: the frame of each stream agent's turn, and that of the host's step. -/
theorem hostAndStreamShareOnlyTheFifoAndFlags : Obligations.HostAndStreamShareOnlyTheFifoAndFlags := by
  refine ⟨fun s t h hhost => ?_, fun s t h ha hr => ?_⟩
  · cases ha : nextAgent s with
    | host => exact absurd ha hhost
    | source =>
      rw [step_source ha] at h
      cases h
      exact sourceTurn_sameButStream s
    | demodulator =>
      rw [step_demodulator ha] at h
      cases h
      exact demodTurn_sameButStream s
  · have he := host_effect ha h
    exact ⟨(he.streamKept hr).withStream_eq, he.stream⟩

end Sys2Proof.Machine
end

section
/-!
PROOFS. The soft reset (O30), and who writes RES and STATUS.PRESENT (O25).
-/

namespace Sys2Proof.Machine

open Sys2Proof.Claims

/-! The soft reset (O30) -/

/-- With SRST = 1 a write of CTRL is a soft reset, whatever its DEMOD_EN (10_state.md R23). -/
theorem writeCtrl_of_srst {v : Word} (s : State) (h : v.getLsbD 1 = true) : writeCtrl v s = softReset s :=
  if_pos h

/-- Settles O30: the write reaches CTRL in every state, and `softReset` is the power-on state with the environment
kept. -/
theorem softResetIsThePowerOnState : Obligations.SoftResetIsThePowerOnState := fun s v h =>
  (busWrite_ctrl v s).trans (congrArg Host.Outcome.next (writeCtrl_of_srst s h))

/-! Steps that leave RES and PRESENT (O25) -/

/-- RES and STATUS.PRESENT are as they were. -/
def ResultKept (s t : State) : Prop := t.res = s.res ∧ t.present = s.present

/-- A host's step that is neither a soft reset nor a decoded write of CMD leaves the result. -/
theorem HostEffect.resultKept {s t : State} (h : HostEffect s t) (ha : nextAgent s = .host)
    (hr : softResetNext s = false) (hc : ¬ commandNext s) : ResultKept s t := by
  cases h with
  | reset hr' => exact absurd (hr.symm.trans hr') (by decide)
  | illegal w hacc hf => exact absurd ⟨hf, ha, w, hacc⟩ hc
  | command w _ _ hacc hf => exact absurd ⟨hf, ha, w, hacc⟩ hc
  | operand t _ hs => rw [hs]; exact ⟨rfl, rfl⟩
  | _ => exact ⟨rfl, rfl⟩

/-- The Source and the Demodulator do not touch the result. -/
theorem SameButStream.resultKept {s t : State} (h : SameButStream s t) : ResultKept s t := by
  rw [h]
  exact ⟨rfl, rfl⟩

theorem step_resultKept {s t : State} (h : step s = .next t) (hr : softResetNext s = false) (hc : ¬ commandNext s) :
    ResultKept s t := by
  cases ha : nextAgent s with
  | host => exact (host_effect ha h).resultKept ha hr hc
  | source =>
    rw [step_source ha] at h
    cases h
    exact (sourceTurn_sameButStream s).resultKept
  | demodulator =>
    rw [step_demodulator ha] at h
    cases h
    exact (demodTurn_sameButStream s).resultKept

/-- A step that records a fault leaves the result, even where the fault is a command's. -/
theorem FaultEntry.resultKept {s t : State} (h : FaultEntry s t) : ResultKept s t := by
  cases h <;> exact ⟨rfl, rfl⟩

/-! Commands overwrite RES and PRESENT (O25) -/

/-- An absent result has RES = 0 (00_scope.md R13). -/
theorem Effect.res_of_absent {i : Instr} {s t : State} (h : Effect s i t) (hi : i ≠ .nop) (hf : t.fault = false)
    (hp : t.present = false) : t.res = 0 := by
  cases h with
  | nop => exact absurd rfl hi
  | fault => cases hf
  | absent | frameDropped => rfl
  | present | frameBuilt | framePopped | cprEven | cprOdd => cases hp

/-- `s` with other old values of RES and PRESENT. -/
def withResult (b : Bool) (v : DWord) (s : State) : State := { s with present := b, res := v }

/-- The two results agree, unless the first records a fault, which keeps the old values of RES and PRESENT. -/
def AgreeUnlessFault (p q : Result) : Prop := ∀ t : State, p = .next t → t.fault = false → q = .next t

theorem AgreeUnlessFault.of_eq {p q : Result} (h : q = p) : AgreeUnlessFault p q := fun _ hp _ => h.trans hp

theorem AgreeUnlessFault.of_fault (c : FaultCause) (s : State) (q : Result) :
    AgreeUnlessFault (.next (raiseCmd c s)) q := by
  intro t ht hf
  cases ht
  cases hf

/-- A check that reads neither RES nor PRESENT takes the same branch on both sides. -/
theorem AgreeUnlessFault.ite {c : Prop} [Decidable c] {p p' q q' : Result} (h : AgreeUnlessFault p q)
    (h' : AgreeUnlessFault p' q') : AgreeUnlessFault (if c then p else p') (if c then q else q') := by
  split
  · exact h
  · exact h'

/-- A command that checks once, then answers the same whatever RES and PRESENT held. -/
theorem AgreeUnlessFault.check {c : Prop} [Decidable c] {e : FaultCause} {s : State} {p q r : Result}
    (h : AgreeUnlessFault p q) :
    AgreeUnlessFault (if c then .next (raiseCmd e s) else p) (if c then r else q) :=
  .ite (.of_fault e s r) h

/-- An accessor reads neither RES nor PRESENT. -/
theorem needFrame_withResult {b : Bool} {v : DWord} {s k k' : State} (h : k' = k) :
    AgreeUnlessFault (needFrame s k) (needFrame (withResult b v s) k') :=
  .ite (.of_eq (congrArg Host.Outcome.next h)) (.of_fault .noFrame s _)

theorem execCprDecode_withResult (a : Byte) (b : Bool) (v : DWord) (s : State) :
    execCprDecode a (withResult b v s) = execCprDecode a s := by
  generalize h : cprQ (a.getLsbD 0) s.cprX0 s.cprY0 s.cprX1 s.cprY1 = o
  rw [execCprDecode_eq h, execCprDecode_eq (s := withResult b v s) h]
  cases o <;> rfl

theorem execFifoPop_withResult (b : Bool) (v : DWord) (s : State) :
    AgreeUnlessFault (execFifoPop s) (execFifoPop (withResult b v s)) := by
  cases hq : s.fifo with
  | nil =>
    rw [execFifoPop_of_nil hq]
    exact .of_fault .fifoEmpty s _
  | cons e rest =>
    rw [execFifoPop_of_cons hq, execFifoPop_of_cons (s := withResult b v s) hq]
    exact .of_eq rfl

/-- No command but NOP reads RES or PRESENT, and each writes both unless it faults. -/
theorem exec_withResult {i : Instr} (hi : i ≠ .nop) (b : Bool) (v : DWord) (s : State) :
    AgreeUnlessFault (exec i s) (exec i (withResult b v s)) := by
  cases i with
  | nop => exact absurd rfl hi
  | bsLength | crcTable | crcCompute => exact .of_eq rfl
  | bvTestbit | bsByteat => exact .check (.of_eq rfl)
  | bvExtract | bsRange | rfOf => exact .check (.check (.of_eq rfl))
  | rfDf | rfIcao | rfMe | rfTc | rfClass | rfCprload => exact needFrame_withResult rfl
  | cprDecode a => exact .of_eq (execCprDecode_withResult a b v s)
  | fifoPop => exact execFifoPop_withResult b v s

/-- Settles O25, by what a step leaves, what a fault entry leaves, and what each command overwrites. -/
theorem onlyCommandsWriteTheResult : Obligations.OnlyCommandsWriteTheResult := by
  refine ⟨fun s t => step_resultKept, fun s t h hs ht => (step_faultEntry h hs ht).resultKept,
    fun i s t h hi _ ht => ⟨(exec_effect h).res_of_absent hi ht, fun b v => ?_⟩⟩
  exact exec_withResult hi b v s t h ht

end Sys2Proof.Machine
end
